-- ==== Sys2Proof/Word.lean ====
section
/-! DEFINITION. The fixed-width values of the core: host bytes, target register addresses and
target data words, all unsigned with bit 0 the least significant bit (spec rule R11). -/

namespace Sys2Proof

/-- A byte of the host link (R80, R81). -/
abbrev Byte := BitVec 8

/-- A register that holds a target register address: 7 bits, 0 to 127 (R25, R27, R61).
`Config.addrBits` says how many of them an address has. -/
abbrev Addr := BitVec 7

/-- A register that holds the contents of a target register: 32 bits (R25, R27, R61, R64).
`Config.dataBits` says how many of them a word on the line has. -/
abbrev Data := BitVec 32

end Sys2Proof
end

