-- ==== Sys2Proof/Config.lean ====
section
/-! DEFINITION. What one build of the core fixes: the parameters of spec rule R8 as a record, which
of those records the model accepts (R9, R10), and the free
values: the inputs and line levels that the spec leaves to the outside world. -/

namespace Sys2Proof

/-- The numeric parameters of R8. A default is the value R8's table gives with status "source" or
"decision"; `clkHz` and `powerReset` are OPEN there and have none. The model carries the record in
its state, so a statement about every state is a statement about every configuration. -/
structure Config where
  /-- `CLK_HZ`, OPEN. -/
  clkHz : Nat
  /-- `POWER_RESET`, OPEN. -/
  powerReset : Bool
  /-- `BIT_RATE_HZ`. -/
  bitRateHz : Nat := 8000000
  /-- `MS_RATE_HZ`. -/
  msRateHz : Nat := 1000
  /-- `ATTACH_HIGH_MS`. -/
  attachHighMs : Nat := 5
  /-- `ATTACH_LOW_MS`. -/
  attachLowMs : Nat := 20
  /-- `SPACE1_TICKS`. -/
  space1Ticks : Nat := 2
  /-- `SPACE0_TICKS`. -/
  space0Ticks : Nat := 8
  /-- `MARK_TICKS`. -/
  markTicks : Nat := 4
  /-- `STOP_TICKS`. -/
  stopTicks : Nat := 20
  /-- `DEC_ONE_MAX_TICKS`. -/
  decOneMaxTicks : Nat := 4
  /-- `DEC_ERR_TICKS`. -/
  decErrTicks : Nat := 96
  /-- `DEC_MARK_TICKS`. -/
  decMarkTicks : Nat := 4
  /-- `ADDR_BITS`, the bits of a register address; fewer than 7 is log entry 3. -/
  addrBits : Nat := 7
  /-- `DATA_BITS`, the bits of a data word; fewer than 32 is log entry 3. -/
  dataBits : Nat := 32
  /-- `GREETING_BYTE`, `'!'`. -/
  greetingByte : Byte := 0x21#8
  /-- `ACK_BYTE`, `'+'`. -/
  ackByte : Byte := 0x2B#8
  deriving DecidableEq, Repr

/-- The configuration with the spec's value for every parameter that has one (R8). -/
def Config.source (clkHz : Nat) (powerReset : Bool) : Config :=
  { clkHz := clkHz, powerReset := powerReset }

/-- The tick sources produce at most one tick a cycle (R9), and each ticks at all. -/
def Config.clockOk (c : Config) : Bool :=
  decide (1 ≤ c.msRateHz) && decide (c.msRateHz ≤ c.clkHz) &&
    decide (1 ≤ c.bitRateHz) && decide (c.bitRateHz ≤ c.clkHz)

/-- The relations among the source's constants (R10). -/
def Config.relationsOk (c : Config) : Bool :=
  decide (c.decErrTicks = 12 * c.space0Ticks) && decide (c.space1Ticks < c.decOneMaxTicks) &&
    decide (c.decOneMaxTicks < c.space0Ticks)

/-- A duration is at least one tick and fits the counter that counts it. -/
def Config.fits (n width : Nat) : Bool := decide (1 ≤ n) && decide (n < 2 ^ width)

/-- An operand has at least one bit and fits the register that holds it. -/
def Config.holds (n width : Nat) : Bool := decide (1 ≤ n) && decide (n ≤ width)

/-- DESIGN CHOICE, log entry 10 (safe): every duration fits the counter register R22 and R24 give
it, and every operand the register R25 and R27 give it, since those widths are for the source's
values. -/
def Config.widthsOk (c : Config) : Bool :=
  Config.fits c.attachHighMs 5 && Config.fits c.attachLowMs 5 && Config.fits c.space1Ticks 5 &&
    Config.fits c.space0Ticks 5 && Config.fits c.markTicks 5 && Config.fits c.stopTicks 5 &&
    Config.fits c.decErrTicks 7 && Config.fits c.decMarkTicks 3 &&
    Config.holds c.addrBits 7 && Config.holds c.dataBits 32

/-- The configurations that have a meaning; every other one is refused (R9, R271 X5; the relations and
the widths are log entry 10). -/
def Config.accepted (c : Config) : Bool := c.clockOk && c.relationsOk && c.widthsOk

/-- The configuration of the spec's vectors (95_test_vectors.md, conventions): 8 MHz, power off.
DESIGN CHOICE, log entry 1 (unsafe): R8 leaves both OPEN; only `State.reset` uses this value. -/
def Config.vectors : Config := Config.source 8000000 false

/-- The line level in a cycle in which the core drives high and the target pulls low (R116,
R271 X4): a free draw, log entry 4. -/
opaque Config.contention : Nat → Bool

/-- The inputs (R113) of a cycle for which the state schedules none: free draws, log entry 2. -/
opaque Config.freeRst : Nat → Bool

/-- See `Config.freeRst`. -/
opaque Config.freeRxReady : Nat → Bool

/-- See `Config.freeRst`. -/
opaque Config.freeRxData : Nat → Byte

/-- See `Config.freeRst`. -/
opaque Config.freeTxReady : Nat → Bool

/-- See `Config.freeRst`. -/
opaque Config.freeTargetLow : Nat → Bool

end Sys2Proof
end

