-- ==== Sys2Proof/Syntax.lean ====
section
/-! DEFINITION. The instructions of the core: one constructor for each row of
spec/opcode_table.json, with the operands the row's rule gives it; and the five decode points
("ports") the rows belong to. -/

namespace Sys2Proof

/-- The rows of spec/opcode_table.json. -/
inductive Instr where
  /-- TEST, `'?'` (R138). -/
  | test
  /-- POWER_ON, `'p'` (R136). -/
  | powerOn
  /-- POWER_OFF, `'P'` (R137). -/
  | powerOff
  /-- WRITE_REG, `'w'`, a register address and the data (R139). -/
  | writeReg (reg : Addr) (data : Data)
  /-- READ_REG, `'r'`, a register address (R140). -/
  | readReg (reg : Addr)
  /-- An unrecognised command byte (R141). -/
  | ignored (byte : Byte)
  /-- GREETING, the device's own `'!'` (R133). -/
  | greeting
  /-- START_WRITE, with `reg_out` and `wdata_out` (R173). -/
  | startWrite (reg : Addr) (data : Data)
  /-- START_READ, with `reg_out` (R174). -/
  | startRead (reg : Addr)
  /-- EMIT_BIT0 (R206). -/
  | emitBit0
  /-- EMIT_BIT1 (R207). -/
  | emitBit1
  /-- EMIT_START (R208). -/
  | emitStart
  /-- EMIT_STOP (R209). -/
  | emitStop
  /-- READ_BIT (R243). -/
  | readBit
  deriving DecidableEq, Repr

/-- Where an instruction is decoded: the `format` column of the opcode table. -/
inductive Port where
  /-- Host command frames (`host_frame_1`, `host_frame_2`, `host_frame_6`; R80). -/
  | hostLink
  /-- The byte the core itself sends first (`device_output`; R81). -/
  | deviceOutput
  /-- The SWIOTransactor's start request (`transactor_start`; R88). -/
  | transactorStart
  /-- The BitEmitter's request (`emitter_request`; R89). -/
  | emitterRequest
  /-- The BitDecoder's request (`decoder_request`; R90). -/
  | decoderRequest
  deriving DecidableEq, Repr

/-- What a port carries, as bits. -/
inductive PortWord where
  /-- Bytes in arrival order, a command byte first. -/
  | host (bytes : List Byte)
  /-- A byte the core offers to ByteLink. -/
  | output (byte : Byte)
  /-- `code` is the pair start_write, start_read; the operands stand beside it (R88). -/
  | start (code : BitVec 2) (reg : Addr) (data : Data)
  /-- `code` is emit_req in the high bit and `emit_kind` below it (R89). -/
  | emit (code : BitVec 3)
  /-- `code` is `dec_req` (R90). -/
  | dec (code : BitVec 1)
  deriving DecidableEq, Repr

/-- The port of an instruction's row. -/
def Instr.port : Instr → Port
  | .test => .hostLink
  | .powerOn => .hostLink
  | .powerOff => .hostLink
  | .writeReg _ _ => .hostLink
  | .readReg _ => .hostLink
  | .ignored _ => .hostLink
  | .greeting => .deviceOutput
  | .startWrite _ _ => .transactorStart
  | .startRead _ => .transactorStart
  | .emitBit0 => .emitterRequest
  | .emitBit1 => .emitterRequest
  | .emitStart => .emitterRequest
  | .emitStop => .emitterRequest
  | .readBit => .decoderRequest

/-- The port a word stands on. -/
def PortWord.port : PortWord → Port
  | .host _ => .hostLink
  | .output _ => .deviceOutput
  | .start _ _ _ => .transactorStart
  | .emit _ => .emitterRequest
  | .dec _ => .decoderRequest

end Sys2Proof
end

