-- ==== Sys2Proof/WellFormed.lean ====
section
/-! DEFINITION. Which instructions the opcode table has: every term of `Instr`, except that the
byte of an IGNORED frame is none of the five command codes (spec rules R82 and R84), and the register
operand of a host frame is an address of `ADDR_BITS` bits (R8, R85). The codes' values are the spec's
own, from general knowledge (R14, log entry 3). -/

namespace Sys2Proof

/-- Code of TEST, `'?'` (R82). -/
def codeTest : Byte := 0x3F#8

/-- Code of POWER_ON, `'p'` (R82). -/
def codePowerOn : Byte := 0x70#8

/-- Code of POWER_OFF, `'P'` (R82). -/
def codePowerOff : Byte := 0x50#8

/-- Code of WRITE_REG, `'w'` (R82). -/
def codeWriteReg : Byte := 0x77#8

/-- Code of READ_REG, `'r'` (R82). -/
def codeReadReg : Byte := 0x72#8

/-- The first byte is one of the five command codes (R82). -/
def isCommandCode (b : Byte) : Bool :=
  b == codeTest || b == codePowerOn || b == codePowerOff || b == codeWriteReg || b == codeReadReg

/-- The instruction is one of the opcode table, in a build with this configuration. -/
def Instr.wellFormed (cfg : Config) : Instr → Bool
  | .ignored b => !isCommandCode b
  | .test => true
  | .powerOn => true
  | .powerOff => true
  | .writeReg r _ => decide (r.toNat < 2 ^ cfg.addrBits)
  | .readReg r => decide (r.toNat < 2 ^ cfg.addrBits)
  | .greeting => true
  | .startWrite _ _ => true
  | .startRead _ => true
  | .emitBit0 => true
  | .emitBit1 => true
  | .emitStart => true
  | .emitStop => true
  | .readBit => true

end Sys2Proof
end

