-- ==== Sys2Proof/Decode.lean ====
section
/-! DEFINITION. Decoding at the five ports (spec rules R80 to R90), total on any word and refusing by
name; the encoder, written from the same rules; and the reading of one opcode-table word. -/

namespace Sys2Proof

/-- Why a port's word is no instruction. -/
inductive DecodeError where
  /-- The bytes end before the frame does (R80). -/
  | frameIncomplete
  /-- The byte the core sends is not the greeting (R81). -/
  | notTheGreeting
  /-- The request lines carry no request (R88, R89, R90). -/
  | noRequest
  /-- Both start lines are 1 (R88, R175). -/
  | conflictingStart
  deriving DecidableEq, Repr

/-- The register operand is the low `ADDR_BITS` bits of its byte, 6 to 0 in the source's build; the
others are discarded (R63, R85; fewer than 7 bits is log entry 3). -/
def regOfByte (cfg : Config) (b : Byte) : Addr := (b.setWidth cfg.addrBits).setWidth 7

/-- A register address as the byte that spells it (R98). -/
def byteOfReg (r : Addr) : Byte := r.setWidth 8

/-- Byte lane `i` of a word, lane 0 least significant (R69, R125). -/
def byteLane (v : Data) (i : BitVec 2) : Byte := (v >>> (8 * i.toNat)).setWidth 8

/-- A word with byte lane `i` overwritten (R125, R143). -/
def insertLane (v : Data) (i : BitVec 2) (b : Byte) : Data :=
  (v &&& ~~~((0xFF#32) <<< (8 * i.toNat))) ||| (b.setWidth 32 <<< (8 * i.toNat))

/-- Four bytes in arrival order, the least significant first (R68, R86). -/
def dataOfBytes (b0 b1 b2 b3 : Byte) : Data :=
  b0.setWidth 32 ||| (b1.setWidth 32 <<< 8) ||| (b2.setWidth 32 <<< 16) |||
    (b3.setWidth 32 <<< 24)

/-- A word as the four bytes that spell it, the least significant first (R98). -/
def bytesOfData (v : Data) : List Byte := [byteLane v 0, byteLane v 1, byteLane v 2, byteLane v 3]

/-- One host command frame and the bytes after it: the first byte alone decides the length (R80,
R82, R83), and every byte that is no command code is a frame of its own (R84). -/
def decodeFrame (cfg : Config) : List Byte → Except DecodeError (Instr × List Byte)
  | [] => .error .frameIncomplete
  | c :: rest =>
    if c = codeTest then .ok (.test, rest)
    else if c = codePowerOn then .ok (.powerOn, rest)
    else if c = codePowerOff then .ok (.powerOff, rest)
    else if c = codeWriteReg then
      match rest with
      | r :: b0 :: b1 :: b2 :: b3 :: rest' =>
        .ok (.writeReg (regOfByte cfg r) (dataOfBytes b0 b1 b2 b3), rest')
      | _ => .error .frameIncomplete
    else if c = codeReadReg then
      match rest with
      | r :: rest' => .ok (.readReg (regOfByte cfg r), rest')
      | [] => .error .frameIncomplete
    else .ok (.ignored c, rest)

/-- The host port: the frame at the head of the bytes. -/
def decodeHost (cfg : Config) (bytes : List Byte) : Except DecodeError Instr :=
  match decodeFrame cfg bytes with
  | .ok (i, _) => .ok i
  | .error e => .error e

/-- The device-output port: the one row there is GREETING, spelled `GREETING_BYTE` (R8, R81). -/
def decodeOutput (cfg : Config) (b : Byte) : Except DecodeError Instr :=
  if b = cfg.greetingByte then .ok .greeting else .error .notTheGreeting

/-- The transactor's start code (R88). -/
def decodeStart (code : BitVec 2) (reg : Addr) (data : Data) : Except DecodeError Instr :=
  if code = 0b10#2 then .ok (.startWrite reg data)
  else if code = 0b01#2 then .ok (.startRead reg)
  else if code = 0b11#2 then .error .conflictingStart
  else .error .noRequest

/-- The emitter's request code (R89). -/
def decodeEmit (code : BitVec 3) : Except DecodeError Instr :=
  if code = 0b100#3 then .ok .emitBit0
  else if code = 0b101#3 then .ok .emitBit1
  else if code = 0b110#3 then .ok .emitStart
  else if code = 0b111#3 then .ok .emitStop
  else .error .noRequest

/-- The decoder's request line (R90). -/
def decodeDec (code : BitVec 1) : Except DecodeError Instr :=
  if code = 0b1#1 then .ok .readBit else .error .noRequest

/-- The instruction a port's word carries, in a build with this configuration. -/
def decode (cfg : Config) : PortWord → Except DecodeError Instr
  | .host bytes => decodeHost cfg bytes
  | .output b => decodeOutput cfg b
  | .start code reg data => decodeStart code reg data
  | .emit code => decodeEmit code
  | .dec code => decodeDec code

/-- The word that spells an instruction on its port (R82, R88, R89, R90, R98). START_READ has no
data operand: `wdata_out` is then not read, and is spelled 0. -/
def encode (cfg : Config) : Instr → PortWord
  | .test => .host [0x3F#8]
  | .powerOn => .host [0x70#8]
  | .powerOff => .host [0x50#8]
  | .writeReg r d => .host (0x77#8 :: byteOfReg r :: bytesOfData d)
  | .readReg r => .host [0x72#8, byteOfReg r]
  | .ignored b => .host [b]
  | .greeting => .output cfg.greetingByte
  | .startWrite r d => .start 0b10#2 r d
  | .startRead r => .start 0b01#2 r 0#32
  | .emitBit0 => .emit 0b100#3
  | .emitBit1 => .emit 0b101#3
  | .emitStart => .emit 0b110#3
  | .emitStop => .emit 0b111#3
  | .readBit => .dec 0b1#1

/-- What was decoded, without the reason where nothing was. -/
def decode? (cfg : Config) (w : PortWord) : Option Instr :=
  match decode cfg w with
  | .ok i => some i
  | .error _ => none

/-- The first six bytes of a host word, bits above `nbits` being 0. -/
def hostBytes (nbits w : Nat) : List Byte :=
  (List.range 6).map fun k => BitVec.ofNat 8 ((w % 2 ^ nbits) / 2 ^ (8 * k))

/-- The port whose row an opcode-table word is. DESIGN CHOICE, log entry 7 (safe): the table's rows
stand on five ports and their codes overlap, so a bare word is read on the port whose row spells
it; widths of 1, 2 and 3 bits are the request codes' own. The machine itself never guesses:
`State.portWord` always names the port. -/
def tablePort (nbits w : Nat) : PortWord :=
  if nbits = 1 then .dec (BitVec.ofNat 1 w)
  else if nbits = 2 then .start (BitVec.ofNat 2 w) 0 0
  else if nbits = 3 then .emit (BitVec.ofNat 3 w)
  else if w % 2 ^ nbits = 1 ∨ w % 2 ^ nbits = 2 then .start (BitVec.ofNat 2 w) 0 0
  else if 4 ≤ w % 2 ^ nbits ∧ w % 2 ^ nbits ≤ 7 then .emit (BitVec.ofNat 3 w)
  else if w % 2 ^ nbits = 0x21 then .output 0x21#8
  else .host (hostBytes nbits w)

/-- The instruction of an opcode-table word. The table is written for the values of R8. -/
def decodeTableWord (nbits w : Nat) : Option Instr := decode? Config.vectors (tablePort nbits w)

end Sys2Proof
end

