-- ==== Sys2Proof/Machine/State.lean ====
section
/-! DEFINITION. The state of the machine: every register of spec rules R20 to R28 under the spec's
own name, the configuration of R8 and the coming inputs of R113; the state after reset (R35,
R300); and the reasons a step can stop. -/

namespace Sys2Proof.Machine

/-- `est` (R22). -/
inductive EmitterState where
  | attachHigh | attachLow | idle | space | mark | stop
  deriving DecidableEq, Repr

/-- `dst` (R24). -/
inductive DecoderState where
  | idle | setup | capture | finish | waitMark
  deriving DecidableEq, Repr

/-- `tst` (R25). -/
inductive TransactorState where
  | idle | start | addr | dir | wdata | rdata | stop
  deriving DecidableEq, Repr

/-- `cst` (R26). -/
inductive DispatcherState where
  | init | waitCmd | dispatch | recvReg | recvData | startTx | waitDone | sendData | sendAck
  deriving DecidableEq, Repr

/-- The register of one tick source (R21). -/
structure TickSource where
  acc : Nat
  deriving DecidableEq, Repr

/-- The BitEmitter's registers (R22). -/
structure BitEmitter where
  est : EmitterState
  msCnt : BitVec 5
  bcnt : BitVec 5
  efin : Bool
  deriving DecidableEq, Repr

/-- The BitDecoder's registers (R24). -/
structure BitDecoder where
  dst : DecoderState
  dcnt : BitVec 7
  mcnt : BitVec 3
  dbit : Bool
  derr : Bool
  dfin : Bool
  deriving DecidableEq, Repr

/-- The SWIOTransactor's registers (R25). `op` is true for a write. -/
structure Transactor where
  tst : TransactorState
  issued : Bool
  idx : BitVec 5
  op : Bool
  treg : Addr
  twdata : Data
  rshift : Data
  rerr : Bool
  tdone : Bool
  deriving DecidableEq, Repr

/-- The CommandDispatcher's registers (R26, R27, R28). -/
structure Dispatcher where
  cst : DispatcherState
  cmd : Byte
  creg : Addr
  cwdata : Data
  crdata : Data
  cidx : BitVec 2
  power : Bool
  rxAckR : Bool
  txStartR : Bool
  txDataR : Byte
  swR : Bool
  srR : Bool
  deriving DecidableEq, Repr

/-- What the outside world presents in one cycle (R113). The line level itself is computed from
the target's pull and the core's own drive (R116). -/
structure Inputs where
  rst : Bool
  rxReady : Bool
  rxData : Byte
  txReady : Bool
  targetLow : Bool
  deriving DecidableEq, Repr

/-- The model's own record of the outside world, no register of the core (R20): the inputs of the
coming cycles, the number of cycles stepped (the argument of the free values), and the byte that
ByteLink's contract obliges it to go on offering (R304 R-a, R-c). -/
structure Env where
  pending : List Inputs
  draws : Nat
  held : Option Byte
  deriving DecidableEq, Repr

/-- The whole machine (R20), with its configuration and its environment. -/
structure State where
  cfg : Config
  ems : TickSource
  ebt : TickSource
  dbt : TickSource
  emitter : BitEmitter
  decoder : BitDecoder
  transactor : Transactor
  dispatcher : Dispatcher
  env : Env
  deriving DecidableEq, Repr

/-- The one fault of the core (R271). -/
inductive Fault where
  /-- CONFLICTING_START, X3: `start_write` and `start_read` are both 1 while the transactor is in
  IDLE (R175). Raised by `State.lockstep`. Safe: the spec gives the combination no meaning. -/
  | conflictingStart
  deriving DecidableEq, Repr

/-- Why a step has no meaning. -/
inductive Refusal where
  /-- An instruction without a meaning, by its mnemonic. No arm of `exec` answers it. Safe. -/
  | notModelled (mnemonic : String)
  /-- CONFIG_REFUSED, X5: the configuration is not an accepted one (R9, R271; that one which breaks
  R10 or does not fit the registers is not accepted is log entry 10). Raised by `step`. Safe: the
  spec refuses it, or gives it no registers. -/
  | configRefused
  /-- ByteLink withdrew or changed a byte before it was acknowledged (R304 R-a and R-c); the spec
  gives such a link no move (93_implementation_defined.md). Raised by `step`. Safe: log entry 5. -/
  | byteLinkBroken
  deriving DecidableEq, Repr

/-- The BitEmitter after reset (R22). -/
def BitEmitter.reset (c : Config) : BitEmitter :=
  { est := .attachHigh, msCnt := BitVec.ofNat 5 c.attachHighMs, bcnt := 0, efin := false }

/-- The BitDecoder after reset (R24). -/
def BitDecoder.reset : BitDecoder :=
  { dst := .idle, dcnt := 0, mcnt := 0, dbit := false, derr := false, dfin := false }

/-- The SWIOTransactor after reset (R25). -/
def Transactor.reset : Transactor :=
  { tst := .idle, issued := false, idx := 0, op := false, treg := 0, twdata := 0, rshift := 0,
    rerr := false, tdone := false }

/-- The CommandDispatcher after reset (R26, R27, R28). -/
def Dispatcher.reset (c : Config) : Dispatcher :=
  { cst := .init, cmd := 0, creg := 0, cwdata := 0, crdata := 0, cidx := 0, power := c.powerReset,
    rxAckR := false, txStartR := false, txDataR := 0, swR := false, srR := false }

/-- `ResetState` of R300 for a configuration, in an environment. -/
def State.resetWith (c : Config) (env : Env) : State :=
  { cfg := c, ems := ⟨0⟩, ebt := ⟨0⟩, dbt := ⟨0⟩, emitter := BitEmitter.reset c,
    decoder := BitDecoder.reset, transactor := Transactor.reset, dispatcher := Dispatcher.reset c,
    env := env }

/-- The machine right after power-up, with nothing known of the coming inputs. The configuration is
DESIGN CHOICE, log entry 1 (unsafe); the empty environment is log entry 2. -/
def State.reset : State :=
  State.resetWith Config.vectors { pending := [], draws := 0, held := none }

end Sys2Proof.Machine
end

