-- ==== Sys2Proof/Machine/Flags.lean ====
section
/-! DEFINITION. The status flags and every other output of the core, each a function of the current
registers only (spec rules R31, R111, R113, R114), and the decoder's classification (R246). -/

namespace Sys2Proof.Machine

/-- `e_ready` (R201, R214). -/
def BitEmitter.ready (e : BitEmitter) : Bool :=
  match e.est with
  | .attachHigh => false
  | .attachLow => false
  | .idle => true
  | .space => true
  | .mark => true
  | .stop => true

/-- `swio_oe` (R201). -/
def BitEmitter.swioOe (e : BitEmitter) : Bool :=
  match e.est with
  | .attachHigh => true
  | .attachLow => true
  | .idle => false
  | .space => true
  | .mark => true
  | .stop => false

/-- `swio_out` (R201): 0 whenever the line is not driven. -/
def BitEmitter.swioOut (e : BitEmitter) : Bool :=
  match e.est with
  | .attachHigh => true
  | .attachLow => false
  | .idle => false
  | .space => false
  | .mark => true
  | .stop => false

/-- What the core does to the line (R115). -/
inductive LineState where
  | released | drivingLow | drivingHigh
  deriving DecidableEq, Repr

/-- R115, from the two line outputs. -/
def BitEmitter.line (e : BitEmitter) : LineState :=
  if e.swioOe then (if e.swioOut then .drivingHigh else .drivingLow) else .released

/-- The transactor is in a state that sends a symbol (R171, R177). -/
def Transactor.emitting (t : Transactor) : Bool :=
  match t.tst with
  | .start => true
  | .addr => true
  | .dir => true
  | .wdata => true
  | .stop => true
  | .idle => false
  | .rdata => false

/-- `emit_req` (R171). -/
def Transactor.emitReq (t : Transactor) : Bool := t.emitting && !t.issued

/-- `emit_kind` of a data bit: 0 in the high bit, the bit below it (R89). -/
def bitKind (b : Bool) : BitVec 2 := if b then 0b01#2 else 0b00#2

/-- Bit `i` of the register address (R125, R179). -/
def Transactor.addrBit (t : Transactor) : Bool := t.treg.getLsbD t.idx.toNat

/-- Bit `i` of the write data (R125, R181). -/
def Transactor.dataBit (t : Transactor) : Bool := t.twdata.getLsbD t.idx.toNat

/-- `emit_kind` (R171). -/
def Transactor.emitKind (t : Transactor) : BitVec 2 :=
  match t.tst with
  | .start => 0b10#2
  | .addr => bitKind t.addrBit
  | .dir => bitKind t.op
  | .wdata => bitKind t.dataBit
  | .stop => 0b11#2
  | .idle => 0b00#2
  | .rdata => 0b00#2

/-- `dec_req` (R171). -/
def Transactor.decReq (t : Transactor) : Bool := t.tst == .rdata && !t.issued

/-- `t_ready` (R171): attached, and no transaction in flight. -/
def State.tReady (s : State) : Bool := s.emitter.ready && s.transactor.tst == .idle

/-- The low of the bit just measured was short enough for a 1 (R246). -/
def classifyBit (c : Config) (dcnt : BitVec 7) : Bool := decide (dcnt.toNat ≤ c.decOneMaxTicks)

/-- The low reached the stuck-line threshold (R246). -/
def classifyError (c : Config) (dcnt : BitVec 7) : Bool := decide (dcnt.toNat = c.decErrTicks)

end Sys2Proof.Machine
end

