-- ==== Sys2Proof/Machine/Ops.lean ====
section
/-! DEFINITION. The named operations every instruction shares: the tick sources (spec rules R118,
R119), the inputs of a cycle (R113), the level of the line (R116), ByteLink's contract (R304),
reset (R300), and the lockstep cycle (R110, R112). The core has no exceptions (R270), so there is
no exception entry and no return here; reset is the only way to leave a state (R275). -/

namespace Sys2Proof.Machine

/-- The tick of a source in this cycle (R118). -/
def TickSource.tick (rate clk : Nat) (t : TickSource) : Bool := decide (clk ≤ t.acc + rate)

/-- A source's register after this cycle (R118). -/
def TickSource.next (rate clk : Nat) (t : TickSource) : TickSource :=
  if t.tick rate clk then ⟨t.acc + rate - clk⟩ else ⟨t.acc + rate⟩

/-- `ms_tick` (R119). -/
def State.msTick (s : State) : Bool := s.ems.tick s.cfg.msRateHz s.cfg.clkHz

/-- `eb_tick` (R119). -/
def State.ebTick (s : State) : Bool := s.ebt.tick s.cfg.bitRateHz s.cfg.clkHz

/-- `d_tick` (R119). -/
def State.dTick (s : State) : Bool := s.dbt.tick s.cfg.bitRateHz s.cfg.clkHz

/-- The inputs of the current cycle: the scheduled ones, else free draws (log entry 2), in which
ByteLink goes on offering the byte its contract holds it to (R304 R-a, R-c). -/
def Env.inputs (e : Env) : Inputs :=
  match e.pending with
  | i :: _ => i
  | [] =>
    { rst := Config.freeRst e.draws, rxReady := e.held.isSome || Config.freeRxReady e.draws,
      rxData := e.held.getD (Config.freeRxData e.draws), txReady := Config.freeTxReady e.draws,
      targetLow := Config.freeTargetLow e.draws }

/-- The inputs of the current cycle. -/
def State.inputs (s : State) : Inputs := s.env.inputs

/-- ByteLink goes on offering a byte it has offered and that is not acknowledged (R304 R-a, R-c; log
entry 5). -/
def State.linkKept (s : State) : Bool :=
  match s.env.held with
  | none => true
  | some b => s.inputs.rxReady && s.inputs.rxData == b

/-- The environment after this cycle: an offered byte without `rx_ack` must be offered again. -/
def Env.next (e : Env) (rxAck : Bool) : Env :=
  { pending := e.pending.tail, draws := e.draws + 1,
    held := if e.inputs.rxReady && !rxAck then some e.inputs.rxData else none }

/-- The environment after the current cycle of a machine. -/
def State.envNext (s : State) : Env := s.env.next s.dispatcher.rxAckR

/-- `swio_in` (R116): pulled up when released and not pulled low by the target; the core's own level
when only the core drives; a free draw under contention. Both pulling low is 0 (DEDUCED, safe:
log entry 4). -/
def State.swioIn (s : State) : Bool :=
  match s.emitter.line with
  | .released => !s.inputs.targetLow
  | .drivingLow => false
  | .drivingHigh => if s.inputs.targetLow then Config.contention s.env.draws else true

/-- `ResetState` in the next cycle (R300): every register at its reset value; the outside world is
not reset. -/
def State.resetNow (s : State) : State := State.resetWith s.cfg s.envNext

/-- What the transactor reads in a cycle (R114). -/
structure TransactorIn where
  startWrite : Bool
  startRead : Bool
  regOut : Addr
  wdataOut : Data
  eFinish : Bool
  dFinish : Bool
  dBit : Bool
  dError : Bool
  deriving DecidableEq, Repr

/-- The transactor's inputs as the core wires them (R114, R131, R201, R241). -/
def State.transactorIn (s : State) : TransactorIn :=
  { startWrite := s.dispatcher.swR, startRead := s.dispatcher.srR, regOut := s.dispatcher.creg,
    wdataOut := s.dispatcher.cwdata, eFinish := s.emitter.efin, dFinish := s.decoder.dfin,
    dBit := s.decoder.dbit, dError := s.decoder.derr }

/-- X3 (R175): both starts in one cycle while the transactor is in IDLE. -/
def Transactor.conflict (t : Transactor) (p : TransactorIn) : Bool :=
  t.tst == .idle && p.startWrite && p.startRead

/-- The state after a cycle, from the next registers of the four components (R112): with them the
three tick sources take their step and the outside world moves on; the configuration stays. -/
def State.advanced (s : State) (d : Dispatcher) (t : Transactor) (e : BitEmitter)
    (b : BitDecoder) : State :=
  { cfg := s.cfg
    ems := s.ems.next s.cfg.msRateHz s.cfg.clkHz
    ebt := s.ebt.next s.cfg.bitRateHz s.cfg.clkHz
    dbt := s.dbt.next s.cfg.bitRateHz s.cfg.clkHz
    emitter := e
    decoder := b
    transactor := t
    dispatcher := d
    env := s.envNext }

end Sys2Proof.Machine
end

