-- ==== Sys2Proof/Machine/Operands.lean ====
section
/-! DEFINITION. Where each instruction's operands come from: the frame the dispatcher is executing, as
its registers and the byte now offered spell it (spec rules R85, R86, R134, R142, R143), and the
words on the five ports in a cycle (R88, R89, R90, R131, R171). -/

namespace Sys2Proof.Machine

/-- `rx_ok` (R132). -/
def State.rxOk (s : State) : Bool := s.inputs.rxReady && !s.dispatcher.rxAckR

/-- `tx_ok` (R132). -/
def State.txOk (s : State) : Bool := s.inputs.txReady && !s.dispatcher.txStartR

/-- The command byte: the one offered in WAIT_CMD (R134), the register `cmd` from then on. -/
def State.commandByte (s : State) : Byte :=
  if s.dispatcher.cst = .waitCmd then s.inputs.rxData else s.dispatcher.cmd

/-- The register byte of the frame: the one offered in RECV_REG (R142), `creg` otherwise. -/
def State.registerByte (s : State) : Byte :=
  if s.dispatcher.cst = .recvReg then s.inputs.rxData else byteOfReg s.dispatcher.creg

/-- The data of the frame: in RECV_DATA with the offered byte in its lane (R143), `cwdata`
otherwise. -/
def State.frameData (s : State) : Data :=
  if s.dispatcher.cst = .recvData then
    insertLane s.dispatcher.cwdata s.dispatcher.cidx s.inputs.rxData
  else s.dispatcher.cwdata

/-- The frame under execution as its bytes. Operands that have not arrived yet stand as the operand
registers hold them; no rule reads them before they arrive (DESIGN CHOICE, log entry 12, safe). -/
def State.frameBytes (s : State) : List Byte :=
  s.commandByte :: s.registerByte :: bytesOfData s.frameData

/-- The word a port carries in this cycle, if it carries one. The host port carries a frame while a
command is being taken or executed; the output port the greeting in INIT. -/
def State.portWord (s : State) : Port → Option PortWord
  | .hostLink =>
    match s.dispatcher.cst with
    | .init => none
    | .waitCmd => if s.rxOk then some (.host s.frameBytes) else none
    | .dispatch => some (.host s.frameBytes)
    | .recvReg => some (.host s.frameBytes)
    | .recvData => some (.host s.frameBytes)
    | .startTx => some (.host s.frameBytes)
    | .waitDone => some (.host s.frameBytes)
    | .sendData => some (.host s.frameBytes)
    | .sendAck => some (.host s.frameBytes)
  | .deviceOutput => if s.dispatcher.cst = .init then some (.output s.cfg.greetingByte) else none
  | .transactorStart =>
    some (.start (BitVec.ofBool s.dispatcher.swR ++ BitVec.ofBool s.dispatcher.srR)
      s.dispatcher.creg s.dispatcher.cwdata)
  | .emitterRequest =>
    some (.emit (BitVec.ofBool s.transactor.emitReq ++ s.transactor.emitKind))
  | .decoderRequest => some (.dec (BitVec.ofBool s.transactor.decReq))

/-- The instruction a port carries in this cycle. -/
def State.carried (s : State) (p : Port) : Option Instr := (s.portWord p).bind (decode? s.cfg)

end Sys2Proof.Machine
end

