-- ==== Sys2Proof/Machine/Decoder.lean ====
section
/-! DEFINITION. The BitDecoder's next-state rules (44_bit_decoder.md): the request READ_BIT (R243) and
the states SETUP, CAPTURE, FINISH and WAIT_MARK (R244 to R247). -/

namespace Sys2Proof.Machine

/-- R242: the `finish` pulse lasts one cycle. -/
def BitDecoder.quiet (b : BitDecoder) : BitDecoder := { b with dfin := false }

/-- READ_BIT accepted: a line already low needs no SETUP (R243). -/
def BitDecoder.acceptRead (swioIn : Bool) (b : BitDecoder) : BitDecoder :=
  { b.quiet with dcnt := 0, dst := if swioIn then .setup else .capture }

/-- SETUP waits for the target's low, without limit (R244). -/
def BitDecoder.setup (swioIn : Bool) (b : BitDecoder) : BitDecoder :=
  if swioIn then b.quiet else { b.quiet with dst := .capture }

/-- CAPTURE counts ticks while the line is low; a high line beats a tick (R245, R249). -/
def BitDecoder.capture (c : Config) (swioIn tick : Bool) (b : BitDecoder) : BitDecoder :=
  if swioIn then { b.quiet with dst := .finish }
  else if tick then
    { b.quiet with
      dcnt := b.dcnt + 1
      dst := if b.dcnt + 1 = BitVec.ofNat 7 c.decErrTicks then .finish else .capture }
  else b.quiet

/-- FINISH classifies the count (R246). -/
def BitDecoder.classify (c : Config) (b : BitDecoder) : BitDecoder :=
  { b.quiet with
    dbit := classifyBit c b.dcnt
    derr := classifyError c b.dcnt
    dst := .waitMark
    mcnt := BitVec.ofNat 3 c.decMarkTicks }

/-- WAIT_MARK (R247). -/
def BitDecoder.waitMark (tick : Bool) (b : BitDecoder) : BitDecoder :=
  if tick then
    if b.mcnt = 1 then { b.quiet with dst := .idle, dfin := true }
    else { b.quiet with mcnt := b.mcnt - 1 }
  else b.quiet

/-- A cycle in which no request is accepted: the state the decoder is in; IDLE holds (R243). -/
def BitDecoder.phase (c : Config) (swioIn tick : Bool) (b : BitDecoder) : BitDecoder :=
  match b.dst with
  | .idle => b.quiet
  | .setup => b.setup swioIn
  | .capture => b.capture c swioIn tick
  | .finish => b.classify c
  | .waitMark => b.waitMark tick

/-- The machine's decoder in a cycle in which no request is accepted. -/
def State.decoderPhase (s : State) : BitDecoder := s.decoder.phase s.cfg s.swioIn s.dTick

/-- A request: accepted in IDLE (R243), ignored in every other state (R248). -/
def State.decoderOn (s : State) (accepted : BitDecoder) : BitDecoder :=
  if s.decoder.dst = .idle then accepted else s.decoderPhase

/-- The BitDecoder's next registers, from the transactor's `dec_req` (R171). -/
def State.decoderNext (s : State) : BitDecoder :=
  if s.transactor.decReq then s.decoderOn (s.decoder.acceptRead s.swioIn) else s.decoderPhase

end Sys2Proof.Machine
end

