-- ==== Sys2Proof/Machine/Dispatcher.lean ====
section
/-! DEFINITION. The CommandDispatcher's next-state rules (41_command_dispatcher.md): the handshake
defaults (R132), each state (R133 to R135, R142 to R147), and the path one command takes through
them (R136 to R141). -/

namespace Sys2Proof.Machine

/-- What the dispatcher reads in a cycle: its handshake guards (R132) and the transactor's outputs
(R114). -/
structure DispatcherIn where
  rxOk : Bool
  txOk : Bool
  tReady : Bool
  tDone : Bool
  readData : Data
  deriving DecidableEq, Repr

/-- The dispatcher's inputs as the core wires them. -/
def State.dispatcherIn (s : State) : DispatcherIn :=
  { rxOk := s.rxOk, txOk := s.txOk, tReady := s.tReady, tDone := s.transactor.tdone,
    readData := s.transactor.rshift }

/-- R132: the four pulses last one cycle. -/
def Dispatcher.quiet (d : Dispatcher) : Dispatcher :=
  { d with rxAckR := false, txStartR := false, swR := false, srR := false }

/-- INIT: the greeting (R133). -/
def Dispatcher.greet (c : Config) (p : DispatcherIn) (d : Dispatcher) : Dispatcher :=
  if p.txOk && p.tReady then
    { d.quiet with txDataR := c.greetingByte, txStartR := true, cst := .waitCmd }
  else d.quiet

/-- WAIT_CMD: take a command byte (R134). -/
def Dispatcher.takeCommand (p : DispatcherIn) (code : Byte) (d : Dispatcher) : Dispatcher :=
  if p.rxOk then { d.quiet with cmd := code, rxAckR := true, cst := .dispatch } else d.quiet

/-- RECV_REG: take the register byte (R142). -/
def Dispatcher.takeRegister (p : DispatcherIn) (isWrite : Bool) (reg : Addr) (d : Dispatcher) :
    Dispatcher :=
  if p.rxOk then
    { d.quiet with
      creg := reg
      rxAckR := true
      cst := if isWrite then .recvData else .startTx
      cidx := if isWrite then 0 else d.cidx }
  else d.quiet

/-- RECV_DATA: take one data byte into its lane (R143). -/
def Dispatcher.takeData (p : DispatcherIn) (byte : Byte) (d : Dispatcher) : Dispatcher :=
  if p.rxOk then
    { d.quiet with
      cwdata := insertLane d.cwdata d.cidx byte
      rxAckR := true
      cst := if d.cidx = 3 then .startTx else .recvData
      cidx := if d.cidx = 3 then 0 else d.cidx + 1 }
  else d.quiet

/-- START_TX: pulse the start of the transaction (R144). -/
def Dispatcher.startTx (isWrite : Bool) (d : Dispatcher) : Dispatcher :=
  { d.quiet with swR := isWrite, srR := !isWrite, cst := .waitDone }

/-- WAIT_DONE: wait for `t_done`; a read's result is sampled in its cycle (R145). -/
def Dispatcher.waitDone (p : DispatcherIn) (isWrite : Bool) (d : Dispatcher) : Dispatcher :=
  if p.tDone then
    if isWrite then { d.quiet with cst := .sendAck }
    else { d.quiet with crdata := p.readData, cidx := 0, cst := .sendData }
  else d.quiet

/-- SEND_DATA: hand over one result byte, least significant first (R146). -/
def Dispatcher.sendData (p : DispatcherIn) (d : Dispatcher) : Dispatcher :=
  if p.txOk then
    { d.quiet with
      txDataR := byteLane d.crdata d.cidx
      txStartR := true
      cst := if d.cidx = 3 then .sendAck else .sendData
      cidx := if d.cidx = 3 then 0 else d.cidx + 1 }
  else d.quiet

/-- SEND_ACK: hand over the ack (R147). -/
def Dispatcher.sendAck (c : Config) (p : DispatcherIn) (d : Dispatcher) : Dispatcher :=
  if p.txOk then { d.quiet with txDataR := c.ackByte, txStartR := true, cst := .waitCmd }
  else d.quiet

/-- DISPATCH of TEST (R135, R138). -/
def Dispatcher.dispatchTest (d : Dispatcher) : Dispatcher := { d.quiet with cst := .sendAck }

/-- DISPATCH of POWER_ON (R135, R136). -/
def Dispatcher.dispatchPowerOn (d : Dispatcher) : Dispatcher :=
  { d.quiet with power := true, cst := .sendAck }

/-- DISPATCH of POWER_OFF (R135, R137). -/
def Dispatcher.dispatchPowerOff (d : Dispatcher) : Dispatcher :=
  { d.quiet with power := false, cst := .sendAck }

/-- DISPATCH of WRITE_REG (R135, R139). -/
def Dispatcher.dispatchWriteReg (d : Dispatcher) : Dispatcher := { d.quiet with cst := .recvReg }

/-- DISPATCH of READ_REG (R135, R140). -/
def Dispatcher.dispatchReadReg (d : Dispatcher) : Dispatcher := { d.quiet with cst := .recvReg }

/-- DISPATCH of any other byte (R135, R141). -/
def Dispatcher.dispatchIgnored (d : Dispatcher) : Dispatcher := { d.quiet with cst := .waitCmd }

/-- DISPATCH's case on the command byte (R135). -/
def Dispatcher.dispatchByCode (code : Byte) (d : Dispatcher) : Dispatcher :=
  if code = codeTest then d.dispatchTest
  else if code = codePowerOn then d.dispatchPowerOn
  else if code = codePowerOff then d.dispatchPowerOff
  else if code = codeWriteReg then d.dispatchWriteReg
  else if code = codeReadReg then d.dispatchReadReg
  else d.dispatchIgnored

/-- One cycle on the path of the command with this code and these operands, whose DISPATCH is given:
each state's rule R133 to R147, the rules that tell WRITE_REG from the rest asking only whether the
code is `'w'`. -/
def Dispatcher.path (d : Dispatcher) (c : Config) (p : DispatcherIn) (code : Byte) (reg : Addr)
    (data : Data) (dispatched : Dispatcher) : Dispatcher :=
  match d.cst with
  | .init => d.greet c p
  | .waitCmd => d.takeCommand p code
  | .dispatch => dispatched
  | .recvReg => d.takeRegister p (code == codeWriteReg) reg
  | .recvData => d.takeData p (byteLane data d.cidx)
  | .startTx => d.startTx (code == codeWriteReg)
  | .waitDone => d.waitDone p (code == codeWriteReg)
  | .sendData => d.sendData p
  | .sendAck => d.sendAck c p

/-- The machine's dispatcher on the path of a command. -/
def State.dispatcherOn (s : State) (code : Byte) (reg : Addr) (data : Data)
    (dispatched : Dispatcher) : Dispatcher :=
  s.dispatcher.path s.cfg s.dispatcherIn code reg data dispatched

/-- The CommandDispatcher's next registers, from its own registers and the byte offered. -/
def State.dispatcherNext (s : State) : Dispatcher :=
  s.dispatcherOn s.commandByte (regOfByte s.cfg s.registerByte) s.frameData
    (s.dispatcher.dispatchByCode s.commandByte)

end Sys2Proof.Machine
end

