-- ==== Sys2Proof/Machine/Emitter.lean ====
section
/-! DEFINITION. The BitEmitter's next-state rules (43_bit_emitter.md): the attach handshake (R203,
R204), the four requests (R205 to R209) and the symbol phases (R210 to R212). -/

namespace Sys2Proof.Machine

/-- R202: the `finish` pulse lasts one cycle. -/
def BitEmitter.quiet (e : BitEmitter) : BitEmitter := { e with efin := false }

/-- EMIT_BIT0 accepted (R205, R206). -/
def BitEmitter.acceptBit0 (c : Config) (e : BitEmitter) : BitEmitter :=
  { e.quiet with est := .space, bcnt := BitVec.ofNat 5 c.space0Ticks }

/-- EMIT_BIT1 accepted (R205, R207). -/
def BitEmitter.acceptBit1 (c : Config) (e : BitEmitter) : BitEmitter :=
  { e.quiet with est := .space, bcnt := BitVec.ofNat 5 c.space1Ticks }

/-- EMIT_START accepted (R205, R208). -/
def BitEmitter.acceptStart (c : Config) (e : BitEmitter) : BitEmitter :=
  { e.quiet with est := .space, bcnt := BitVec.ofNat 5 c.space1Ticks }

/-- EMIT_STOP accepted (R205, R209). -/
def BitEmitter.acceptStop (c : Config) (e : BitEmitter) : BitEmitter :=
  { e.quiet with est := .stop, bcnt := BitVec.ofNat 5 c.stopTicks }

/-- ATTACH_HIGH (R203). -/
def BitEmitter.attachHigh (c : Config) (msTick : Bool) (e : BitEmitter) : BitEmitter :=
  if msTick then
    if e.msCnt = 1 then
      { e.quiet with est := .attachLow, msCnt := BitVec.ofNat 5 c.attachLowMs }
    else { e.quiet with msCnt := e.msCnt - 1 }
  else e.quiet

/-- ATTACH_LOW (R204). -/
def BitEmitter.attachLow (msTick : Bool) (e : BitEmitter) : BitEmitter :=
  if msTick then
    if e.msCnt = 1 then { e.quiet with est := .idle }
    else { e.quiet with msCnt := e.msCnt - 1 }
  else e.quiet

/-- SPACE (R210). -/
def BitEmitter.space (c : Config) (ebTick : Bool) (e : BitEmitter) : BitEmitter :=
  if ebTick then
    if e.bcnt = 1 then { e.quiet with est := .mark, bcnt := BitVec.ofNat 5 c.markTicks }
    else { e.quiet with bcnt := e.bcnt - 1 }
  else e.quiet

/-- MARK (R211). -/
def BitEmitter.mark (ebTick : Bool) (e : BitEmitter) : BitEmitter :=
  if ebTick then
    if e.bcnt = 1 then { e.quiet with est := .idle, efin := true }
    else { e.quiet with bcnt := e.bcnt - 1 }
  else e.quiet

/-- STOP (R212). -/
def BitEmitter.stop (ebTick : Bool) (e : BitEmitter) : BitEmitter :=
  if ebTick then
    if e.bcnt = 1 then { e.quiet with est := .idle, efin := true }
    else { e.quiet with bcnt := e.bcnt - 1 }
  else e.quiet

/-- A cycle in which no request is accepted: the phase the emitter is in; IDLE holds (R205). -/
def BitEmitter.phase (c : Config) (msTick ebTick : Bool) (e : BitEmitter) : BitEmitter :=
  match e.est with
  | .attachHigh => e.attachHigh c msTick
  | .attachLow => e.attachLow msTick
  | .idle => e.quiet
  | .space => e.space c ebTick
  | .mark => e.mark ebTick
  | .stop => e.stop ebTick

/-- The machine's emitter in a cycle in which no request is accepted. -/
def State.emitterPhase (s : State) : BitEmitter := s.emitter.phase s.cfg s.msTick s.ebTick

/-- A request: accepted in IDLE (R205), ignored in every other state (R213). -/
def State.emitterOn (s : State) (accepted : BitEmitter) : BitEmitter :=
  if s.emitter.est = .idle then accepted else s.emitterPhase

/-- The BitEmitter's next registers, from the request the transactor makes (R171, R205). -/
def State.emitterNext (s : State) : BitEmitter :=
  if s.transactor.emitReq then
    if s.transactor.emitKind = 0b00#2 then s.emitterOn (s.emitter.acceptBit0 s.cfg)
    else if s.transactor.emitKind = 0b01#2 then s.emitterOn (s.emitter.acceptBit1 s.cfg)
    else if s.transactor.emitKind = 0b10#2 then s.emitterOn (s.emitter.acceptStart s.cfg)
    else s.emitterOn (s.emitter.acceptStop s.cfg)
  else s.emitterPhase

end Sys2Proof.Machine
end

