-- ==== Sys2Proof/Machine/Transactor.lean ====
section
/-! DEFINITION. The SWIOTransactor's next-state rules (42_swio_transactor.md): the two operations
(R173, R174), issue and wait (R177), and what each state does at the `finish` of its symbol or
bit read (R178 to R183). -/

namespace Sys2Proof.Machine

/-- R172: the `done` pulse lasts one cycle. -/
def Transactor.quiet (t : Transactor) : Transactor := { t with tdone := false }

/-- START_WRITE accepted (R173). -/
def Transactor.acceptWrite (reg : Addr) (data : Data) (t : Transactor) : Transactor :=
  { t.quiet with
    op := true, treg := reg, twdata := data, rerr := false, issued := false, tst := .start }

/-- START_READ accepted (R174). -/
def Transactor.acceptRead (reg : Addr) (t : Transactor) : Transactor :=
  { t.quiet with op := false, treg := reg, rerr := false, issued := false, tst := .start }

/-- advance(START): the address goes out from its top bit, 6 in the source's build (R178). -/
def Transactor.afterStart (c : Config) (t : Transactor) : Transactor :=
  { t.quiet with tst := .addr, idx := BitVec.ofNat 5 (c.addrBits - 1), issued := false }

/-- advance(ADDR) (R179). -/
def Transactor.afterAddr (t : Transactor) : Transactor :=
  if t.idx = 0 then { t.quiet with tst := .dir, issued := false }
  else { t.quiet with idx := t.idx - 1, issued := false }

/-- advance(DIR): the data go from their top bit, 31 in the source's build (R180). -/
def Transactor.afterDir (c : Config) (t : Transactor) : Transactor :=
  { t.quiet with
    tst := if t.op then .wdata else .rdata, idx := BitVec.ofNat 5 (c.dataBits - 1), issued := false }

/-- A bit shifted in at the low end of a register of `DATA_BITS` bits (R182). -/
def shiftIn (c : Config) (v : Data) (bit : Bool) : Data :=
  (((v <<< 1) ||| (BitVec.ofBool bit).setWidth 32).setWidth c.dataBits).setWidth 32

/-- advance(WDATA) (R181). -/
def Transactor.afterWdata (t : Transactor) : Transactor :=
  if t.idx = 0 then { t.quiet with tst := .stop, issued := false }
  else { t.quiet with idx := t.idx - 1, issued := false }

/-- advance(RDATA) (R182): the bit enters at the low end of the shift register. -/
def Transactor.afterRdata (c : Config) (bit err : Bool) (t : Transactor) : Transactor :=
  { t.quiet with
    rshift := shiftIn c t.rshift bit
    rerr := t.rerr || err
    tst := if t.idx = 0 then .stop else .rdata
    idx := if t.idx = 0 then t.idx else t.idx - 1
    issued := false }

/-- advance(STOP) (R183). -/
def Transactor.afterStop (t : Transactor) : Transactor :=
  { t.quiet with tst := .idle, tdone := true, idx := 0, issued := false }

/-- Issue and wait (R177): the request is made in the first phase; the second waits for `finish`. -/
def Transactor.issueAndWait (t : Transactor) (finish : Bool) (advance : Transactor) :
    Transactor :=
  if t.issued then (if finish then advance else t.quiet) else { t.quiet with issued := true }

/-- IDLE (R173, R174). With both starts the cycle is the fault X3 (R175) and this value unused. -/
def Transactor.idle (p : TransactorIn) (t : Transactor) : Transactor :=
  if p.startWrite && !p.startRead then t.acceptWrite p.regOut p.wdataOut
  else if p.startRead && !p.startWrite then t.acceptRead p.regOut
  else t.quiet

/-- The SWIOTransactor's next registers; a start outside IDLE is not read (R176). -/
def Transactor.next (c : Config) (p : TransactorIn) (t : Transactor) : Transactor :=
  match t.tst with
  | .idle => t.idle p
  | .start => t.issueAndWait p.eFinish (t.afterStart c)
  | .addr => t.issueAndWait p.eFinish t.afterAddr
  | .dir => t.issueAndWait p.eFinish (t.afterDir c)
  | .wdata => t.issueAndWait p.eFinish t.afterWdata
  | .rdata => t.issueAndWait p.dFinish (t.afterRdata c p.dBit p.dError)
  | .stop => t.issueAndWait p.eFinish t.afterStop

end Sys2Proof.Machine
end

