-- ==== Sys2Proof/Machine/Cycle.lean ====
section
/-! DEFINITION. One cycle of the whole core (spec rules R110, R112): all four components and the three
tick sources at once, each from the registers of the current cycle. -/

namespace Sys2Proof.Machine

/-- The cycle with these transactor inputs and these next registers of the other components. X3 is
checked before any other effect, and a faulted step has no successor (R175, R273). -/
def State.lockstep (s : State) (p : TransactorIn) (d : Dispatcher) (e : BitEmitter)
    (b : BitDecoder) : Host.Outcome State Fault Refusal :=
  if s.transactor.conflict p then .fault .conflictingStart
  else .next (s.advanced d (s.transactor.next s.cfg p) e b)

/-- The cycle in which every port carries what the core's own wiring puts there (R112, R114). -/
def State.cycle (s : State) : Host.Outcome State Fault Refusal :=
  s.lockstep s.transactorIn s.dispatcherNext s.emitterNext s.decoderNext

end Sys2Proof.Machine
end

