-- ==== Sys2Proof/Machine/DecoderRequests.lean ====
section
/-! DEFINITION. The meaning of the BitDecoder's request (spec rules R243, R248): one cycle of the core
in which `dec_req` is 1. -/

namespace Sys2Proof.Machine

/-- READ_BIT (R243): accepted in IDLE, ignored in every other state (R248). -/
def execReadBit (s : State) : Host.Outcome State Fault Refusal :=
  s.lockstep s.transactorIn s.dispatcherNext s.emitterNext
    (s.decoderOn (s.decoder.acceptRead s.swioIn))

end Sys2Proof.Machine
end

