-- ==== Sys2Proof/Machine/EmitterRequests.lean ====
section
/-! DEFINITION. The meanings of the BitEmitter's four requests (spec rules R205 to R209, R213): one
cycle of the core in which the request port carries that request. -/

namespace Sys2Proof.Machine

/-- A cycle of the core with the emitter's next registers given. -/
def State.emitterCycle (s : State) (e : BitEmitter) : Host.Outcome State Fault Refusal :=
  s.lockstep s.transactorIn s.dispatcherNext e s.decoderNext

/-- EMIT_BIT0 (R206). -/
def execEmitBit0 (s : State) : Host.Outcome State Fault Refusal :=
  s.emitterCycle (s.emitterOn (s.emitter.acceptBit0 s.cfg))

/-- EMIT_BIT1 (R207). -/
def execEmitBit1 (s : State) : Host.Outcome State Fault Refusal :=
  s.emitterCycle (s.emitterOn (s.emitter.acceptBit1 s.cfg))

/-- EMIT_START (R208). -/
def execEmitStart (s : State) : Host.Outcome State Fault Refusal :=
  s.emitterCycle (s.emitterOn (s.emitter.acceptStart s.cfg))

/-- EMIT_STOP (R209). -/
def execEmitStop (s : State) : Host.Outcome State Fault Refusal :=
  s.emitterCycle (s.emitterOn (s.emitter.acceptStop s.cfg))

end Sys2Proof.Machine
end

