-- ==== Sys2Proof/Machine/HostCommands.lean ====
section
/-! DEFINITION. The meanings of the host commands and of the greeting (spec rules R133, R136 to
R141). A command takes many cycles; its meaning is one cycle of the core in which the dispatcher
is on that command's path, in whatever state of the path it stands (the rules' "pseudocode across
states"), while the other components take their own step (log entry 6). -/

namespace Sys2Proof.Machine

/-- A cycle of the core with the dispatcher's next registers given. -/
def State.hostCycle (s : State) (d : Dispatcher) : Host.Outcome State Fault Refusal :=
  s.lockstep s.transactorIn d s.emitterNext s.decoderNext

/-- TEST (R138): DISPATCH goes to SEND_ACK, which sends `'+'`. It has no operands: the operand
arguments are what the port shows, read only in states off its path. -/
def execTest (s : State) : Host.Outcome State Fault Refusal :=
  s.hostCycle (s.dispatcherOn codeTest (regOfByte s.cfg s.registerByte) s.frameData
    s.dispatcher.dispatchTest)

/-- POWER_ON (R136): `power` becomes 1 in DISPATCH, then SEND_ACK. -/
def execPowerOn (s : State) : Host.Outcome State Fault Refusal :=
  s.hostCycle (s.dispatcherOn codePowerOn (regOfByte s.cfg s.registerByte) s.frameData
    s.dispatcher.dispatchPowerOn)

/-- POWER_OFF (R137): `power` becomes 0 in DISPATCH, then SEND_ACK. -/
def execPowerOff (s : State) : Host.Outcome State Fault Refusal :=
  s.hostCycle (s.dispatcherOn codePowerOff (regOfByte s.cfg s.registerByte) s.frameData
    s.dispatcher.dispatchPowerOff)

/-- WRITE_REG (R139): DISPATCH, RECV_REG, four times RECV_DATA, START_TX, WAIT_DONE, SEND_ACK. -/
def execWriteReg (reg : Addr) (data : Data) (s : State) : Host.Outcome State Fault Refusal :=
  s.hostCycle (s.dispatcherOn codeWriteReg reg data s.dispatcher.dispatchWriteReg)

/-- READ_REG (R140): DISPATCH, RECV_REG, START_TX, WAIT_DONE, four times SEND_DATA, SEND_ACK. -/
def execReadReg (reg : Addr) (s : State) : Host.Outcome State Fault Refusal :=
  s.hostCycle (s.dispatcherOn codeReadReg reg s.frameData s.dispatcher.dispatchReadReg)

/-- An unrecognised command byte (R141): DISPATCH goes back to WAIT_CMD and nothing else. -/
def execIgnored (byte : Byte) (s : State) : Host.Outcome State Fault Refusal :=
  s.hostCycle (s.dispatcherOn byte (regOfByte s.cfg s.registerByte) s.frameData
    s.dispatcher.dispatchIgnored)

/-- GREETING (R133): in INIT the greeting byte is sent as soon as both ready signals are 1. It
exists in INIT only; in any other state the dispatcher takes that state's own step. -/
def execGreeting (s : State) : Host.Outcome State Fault Refusal :=
  s.hostCycle (if s.dispatcher.cst = .init then s.dispatcher.greet s.cfg s.dispatcherIn
    else s.dispatcherNext)

end Sys2Proof.Machine
end

