-- ==== Sys2Proof/Machine/TransactorStarts.lean ====
section
/-! DEFINITION. The meanings of the transactor's two operations (spec rules R173 to R176): one cycle of
the core in which the start port carries that request, the other start line being as the core
wires it. -/

namespace Sys2Proof.Machine

/-- START_WRITE (R173): accepted in IDLE, X3 if `start_read` is also 1 (R175), ignored outside IDLE
(R176). -/
def execStartWrite (reg : Addr) (data : Data) (s : State) : Host.Outcome State Fault Refusal :=
  s.lockstep { s.transactorIn with startWrite := true, regOut := reg, wdataOut := data }
    s.dispatcherNext s.emitterNext s.decoderNext

/-- START_READ (R174): accepted in IDLE, X3 if `start_write` is also 1 (R175), ignored outside IDLE
(R176). -/
def execStartRead (reg : Addr) (s : State) : Host.Outcome State Fault Refusal :=
  s.lockstep { s.transactorIn with startRead := true, regOut := reg }
    s.dispatcherNext s.emitterNext s.decoderNext

end Sys2Proof.Machine
end

