-- ==== Sys2Proof/Machine/Dispatch.lean ====
section
/-! DEFINITION. One arm per constructor of `Instr`. -/

namespace Sys2Proof.Machine

def exec (i : Instr) (s : State) : Host.Outcome State Fault Refusal :=
  match i with
  | .test => Sys2Proof.Machine.execTest s
  | .powerOn => Sys2Proof.Machine.execPowerOn s
  | .powerOff => Sys2Proof.Machine.execPowerOff s
  | .writeReg reg data => Sys2Proof.Machine.execWriteReg reg data s
  | .readReg reg => Sys2Proof.Machine.execReadReg reg s
  | .ignored byte => Sys2Proof.Machine.execIgnored byte s
  | .greeting => Sys2Proof.Machine.execGreeting s
  | .startWrite reg data => Sys2Proof.Machine.execStartWrite reg data s
  | .startRead reg => Sys2Proof.Machine.execStartRead reg s
  | .emitBit0 => Sys2Proof.Machine.execEmitBit0 s
  | .emitBit1 => Sys2Proof.Machine.execEmitBit1 s
  | .emitStart => Sys2Proof.Machine.execEmitStart s
  | .emitStop => Sys2Proof.Machine.execEmitStop s
  | .readBit => Sys2Proof.Machine.execReadBit s

end Sys2Proof.Machine
end

