-- ==== Sys2Proof/Machine/Fetch.lean ====
section
/-! DEFINITION. Which instruction a cycle runs, and how an instruction word is placed so that the very
next step runs it. -/

namespace Sys2Proof.Machine

/-- The instruction of the cycle (log entry 6): the innermost request first, since a host command is under
execution all through the requests it gives rise to. Whichever port is taken, the cycle is the
same: `Obligations.StepRunsAnyCarriedInstruction`. -/
def State.fetch (s : State) : Option Instr :=
  ((((s.carried .decoderRequest).or (s.carried .emitterRequest)).or
    (s.carried .transactorStart)).or (s.carried .deviceOutput)).or (s.carried .hostLink)

/-- A cycle in which nothing comes from outside but a ready ByteLink. -/
def Inputs.quiet : Inputs :=
  { rst := false, rxReady := false, rxData := 0, txReady := true, targetLow := false }

/-- A cycle in which ByteLink offers a byte. -/
def Inputs.offering (b : Byte) : Inputs := { Inputs.quiet with rxReady := true, rxData := b }

/-- ByteLink offering these bytes in turn, each until the cycle in which it is acknowledged (R304):
the dispatcher takes one every second cycle (R152). -/
def offers (bytes : List Byte) : List Inputs :=
  bytes.flatMap fun b => [Inputs.offering b, Inputs.offering b]

/-- A cycle at hand with these coming inputs, and no offer outstanding. -/
def State.withPending (s : State) (is : List Inputs) : State :=
  { s with env := { s.env with pending := is, held := none } }

/-- A host frame: its command byte stands in `cmd` with the dispatcher in DISPATCH, its operand bytes
are offered by ByteLink, and the operand registers already show them. -/
def State.placeHost (s : State) (bytes : List Byte) : State :=
  let c := bytes.getD 0 0
  let operands :=
    if c = codeWriteReg then (bytes.drop 1).take 5
    else if c = codeReadReg then (bytes.drop 1).take 1 else []
  { s.withPending (Inputs.quiet :: offers operands) with
    emitter := { s.emitter with est := .idle }
    transactor := { s.transactor with tst := .idle }
    decoder := { s.decoder with dst := .idle }
    dispatcher := { s.dispatcher with
      cst := .dispatch, cmd := c, creg := regOfByte s.cfg (bytes.getD 1 0),
      cwdata := dataOfBytes (bytes.getD 2 0) (bytes.getD 3 0) (bytes.getD 4 0) (bytes.getD 5 0),
      swR := false, srR := false } }

/-- The greeting: the dispatcher in INIT with both ready signals 1. -/
def State.placeOutput (s : State) : State :=
  { s.withPending [Inputs.quiet] with
    emitter := { s.emitter with est := .idle }
    transactor := { s.transactor with tst := .idle }
    dispatcher := { s.dispatcher with cst := .init, txStartR := false, swR := false, srR := false } }

/-- A start request: the dispatcher's start registers and operands, the transactor in IDLE. -/
def State.placeStart (s : State) (code : BitVec 2) (reg : Addr) (data : Data) : State :=
  { s.withPending [Inputs.quiet] with
    emitter := { s.emitter with est := .idle }
    transactor := { s.transactor with tst := .idle }
    dispatcher := { s.dispatcher with
      cst := .waitDone, creg := reg, cwdata := data, swR := code.getLsbD 1, srR := code.getLsbD 0 } }

/-- An emitter request: the transactor state that makes it, the emitter in IDLE. -/
def State.placeEmit (s : State) (code : BitVec 3) : State :=
  { s.withPending [Inputs.quiet] with
    emitter := { s.emitter with est := .idle }
    transactor := { s.transactor with
      issued := false, op := code.getLsbD 0,
      tst := if code.getLsbD 2 then
          (if code.getLsbD 1 then (if code.getLsbD 0 then .stop else .start) else .dir)
        else .idle }
    dispatcher := { s.dispatcher with cst := .waitDone, swR := false, srR := false } }

/-- A bit-read request: the transactor in RDATA about to ask, emitter and decoder in IDLE. -/
def State.placeDec (s : State) (code : BitVec 1) : State :=
  { s.withPending [Inputs.quiet] with
    emitter := { s.emitter with est := .idle }
    decoder := { s.decoder with dst := .idle }
    transactor := { s.transactor with
      issued := false, tst := if code.getLsbD 0 then .rdata else .idle }
    dispatcher := { s.dispatcher with cst := .waitDone, swR := false, srR := false } }

/-- A port's word placed where the next step finds it (log entry 8). -/
def State.place (s : State) : PortWord → State
  | .host bytes => s.placeHost bytes
  | .output _ => s.placeOutput
  | .start code reg data => s.placeStart code reg data
  | .emit code => s.placeEmit code
  | .dec code => s.placeDec code

end Sys2Proof.Machine
end

