-- ==== Sys2Proof/Machine/Step.lean ====
section
/-! DEFINITION. One step of the machine: one system-clock cycle (spec rules R110, R112). -/

namespace Sys2Proof.Machine

/-- One cycle. A refused configuration has no step (R9, X5); `rst` beats everything else (R273,
R300); a link that breaks its contract has no move (R304, R314); otherwise the cycle runs the
instruction its ports carry, and is the plain cycle where they carry none. -/
def step (s : State) : Host.Outcome State Fault Refusal :=
  if !s.cfg.accepted then .refused .configRefused
  else if s.inputs.rst then .next s.resetNow
  else if !s.linkKept then .refused .byteLinkBroken
  else
    match s.fetch with
    | some i => exec i s
    | none => s.cycle

/-- The state with an opcode-table word placed where the next step runs it (log entry 8). -/
def State.withFetchWord (s : State) (nbits w : Nat) : State := s.place (tablePort nbits w)

end Sys2Proof.Machine
end

