-- ==== Sys2Proof/Machine/HostProgram.lean ====
section
/-! DEFINITION. The run of a host program and its end (spec rule R313): the bytes ByteLink hands over
and the bytes the core hands to it, cycle by cycle; the replies a program is owed (R81, R133, R136 to
R141); quiescence; and the first cycle in which the program has ended. -/

namespace Sys2Proof

/-- The bytes with which the core answers an instruction of the host: the result and the ack, or
nothing (R81, R136 to R141). -/
def Instr.replyLength : Instr → Nat
  | .test => 1
  | .powerOn => 1
  | .powerOff => 1
  | .writeReg _ _ => 1
  | .readReg _ => 5
  | .ignored _ => 0
  | .greeting => 0
  | .startWrite _ _ => 0
  | .startRead _ => 0
  | .emitBit0 => 0
  | .emitBit1 => 0
  | .emitStart => 0
  | .emitStop => 0
  | .readBit => 0

/-- The complete frames of a program, in order (R80); no frame is shorter than a byte, so as many as
the program has bytes are all of them. -/
def framesOf (cfg : Config) : Nat → List Byte → List Instr
  | 0, _ => []
  | n + 1, bytes =>
    match decodeFrame cfg bytes with
    | .ok (i, rest) => i :: framesOf cfg n rest
    | .error _ => []

namespace Machine

/-- The core is quiescent: all four components at rest and every pulse register 0 (R313). -/
def State.quiescent (s : State) : Bool :=
  s.dispatcher.cst == .waitCmd && s.transactor.tst == .idle && s.emitter.est == .idle &&
    s.decoder.dst == .idle && !s.emitter.efin && !s.decoder.dfin && !s.transactor.tdone &&
    !s.dispatcher.rxAckR && !s.dispatcher.txStartR && !s.dispatcher.swR && !s.dispatcher.srR

/-- The byte ByteLink hands over in this cycle: the one offered while `rx_ack` is 1 (R304 R-a). -/
def State.byteTaken (s : State) : Option Byte :=
  if s.dispatcher.rxAckR then some s.inputs.rxData else none

/-- The byte the core hands to ByteLink in this cycle (R113, R304). -/
def State.byteSent (s : State) : Option Byte :=
  if s.dispatcher.txStartR then some s.dispatcher.txDataR else none

/-- A run as the host link sees it: the current state, and what has crossed the link in the cycles
before it, oldest first. -/
structure HostRun where
  state : State
  taken : List Byte
  sent : List Byte
  deriving DecidableEq, Repr

/-- A run before its first cycle. -/
def HostRun.start (s : State) : HostRun := { state := s, taken := [], sent := [] }

/-- One cycle of a run. A reset begins another run (R12; log entry 13), and a step that is a fault or
a refusal has no next cycle. -/
def HostRun.next (r : HostRun) : Option HostRun :=
  if r.state.inputs.rst then none
  else
    match step r.state with
    | .next t =>
      some { state := t, taken := r.taken ++ r.state.byteTaken.toList,
             sent := r.sent ++ r.state.byteSent.toList }
    | .fault _ => none
    | .refused _ => none

/-- A run after `n` more cycles. -/
def HostRun.after (r : HostRun) : Nat → Option HostRun
  | 0 => some r
  | n + 1 => (r.after n).bind HostRun.next

/-- The reply bytes the core owes the host from this state on for a program: in INIT the greeting
first (R133), then each frame's answer. -/
def State.repliesOwed (s : State) (program : List Byte) : Nat :=
  (if s.dispatcher.cst = .init then 1 else 0) +
    ((framesOf s.cfg program.length program).map Instr.replyLength).sum

/-- In cycle `n` of the run from here the core is quiescent, ByteLink has handed over exactly the
program, and the core has handed over its last reply byte (R313). -/
def State.completeAt (s : State) (program : List Byte) (n : Nat) : Bool :=
  match (HostRun.start s).after n with
  | some r => r.state.quiescent && r.taken == program && r.sent.length == s.repliesOwed program
  | none => false

/-- The program, run from here, ends in cycle `n` with `t` as its end state: the first such cycle
(R313). A run that never reaches one (R283) has no end state. Nothing is said of the target, of the
line, or of ByteLink's serial side. -/
def State.programEndsAt (s : State) (program : List Byte) (n : Nat) (t : State) : Prop :=
  s.completeAt program n = true ∧ (∀ m, m < n → s.completeAt program m = false) ∧
    ((HostRun.start s).after n).map HostRun.state = some t

end Machine

end Sys2Proof
end

