-- ==== Sys2Proof/Safety.lean ====
section
/-! DEFINITION. What claims about runs of the core speak of: the invariant of the whole core (spec
rules R186, R218, R305 to R307 and the legal values of R21 to R28), the frame of a transaction as the list of its symbols (R95), and the components' runs over a list of ticks. -/

namespace Sys2Proof.Machine

/-- A counter that counts down from `n` and leaves its phase at 1 (R125). -/
abbrev countsDown (v n : Nat) : Prop := 1 ≤ v ∧ v ≤ n

/-- The emitter is putting a symbol on the line. -/
def BitEmitter.inSymbol (e : BitEmitter) : Bool :=
  match e.est with
  | .space => true
  | .mark => true
  | .stop => true
  | .attachHigh => false
  | .attachLow => false
  | .idle => false

/-- What holds in every cycle of a run from reset: the registers have legal values (R21 to R28),
the transactor runs only while the dispatcher waits for it, on the command's own operands (R307),
and the emitter and the decoder run only while the transactor waits for them (R186, R218, R305). -/
structure CoreInv (s : State) : Prop where
  accepted : s.cfg.accepted = true
  emsBound : s.ems.acc < s.cfg.clkHz
  ebtBound : s.ebt.acc < s.cfg.clkHz
  sameBitTicks : s.dbt = s.ebt
  attachHighCount : s.emitter.est = .attachHigh →
    countsDown s.emitter.msCnt.toNat s.cfg.attachHighMs
  attachLowCount : s.emitter.est = .attachLow →
    countsDown s.emitter.msCnt.toNat s.cfg.attachLowMs
  spaceCount : s.emitter.est = .space → countsDown s.emitter.bcnt.toNat s.cfg.space0Ticks
  markCount : s.emitter.est = .mark → countsDown s.emitter.bcnt.toNat s.cfg.markTicks
  stopCount : s.emitter.est = .stop → countsDown s.emitter.bcnt.toNat s.cfg.stopTicks
  lowCount : s.decoder.dcnt.toNat ≤ s.cfg.decErrTicks
  captureCount : s.decoder.dst = .capture → s.decoder.dcnt.toNat < s.cfg.decErrTicks
  setupCount : s.decoder.dst = .setup → s.decoder.dcnt = 0
  waitMarkCount : s.decoder.dst = .waitMark → countsDown s.decoder.mcnt.toNat s.cfg.decMarkTicks
  addrWidth : s.dispatcher.creg.toNat < 2 ^ s.cfg.addrBits ∧
    s.transactor.treg.toNat < 2 ^ s.cfg.addrBits
  dataWidth : s.transactor.rshift.toNat < 2 ^ s.cfg.dataBits ∧
    s.dispatcher.crdata.toNat < 2 ^ s.cfg.dataBits
  attachInInit : s.emitter.ready = false → s.dispatcher.cst = .init
  oneStart : s.dispatcher.swR = true → s.dispatcher.srR = false
  startPulse : (s.dispatcher.swR || s.dispatcher.srR) = true →
    s.dispatcher.cst = .waitDone ∧ s.transactor.tst = .idle ∧ s.transactor.tdone = false
  writeStart : s.dispatcher.swR = true → s.dispatcher.cmd = codeWriteReg
  readStart : s.dispatcher.srR = true → s.dispatcher.cmd = codeReadReg
  busyWaits : s.transactor.tst ≠ .idle → s.dispatcher.cst = .waitDone
  donePulse : s.transactor.tdone = true →
    s.dispatcher.cst = .waitDone ∧ s.transactor.tst = .idle
  waitHasCause : s.dispatcher.cst = .waitDone →
    (s.dispatcher.swR || s.dispatcher.srR) = true ∨ s.transactor.tst ≠ .idle ∨
      s.transactor.tdone = true
  registerCommand : s.dispatcher.cst = .recvReg ∨ s.dispatcher.cst = .startTx ∨
      s.dispatcher.cst = .waitDone →
    s.dispatcher.cmd = codeWriteReg ∨ s.dispatcher.cmd = codeReadReg
  dataCommand : s.dispatcher.cst = .recvData → s.dispatcher.cmd = codeWriteReg
  resultCommand : s.dispatcher.cst = .sendData → s.dispatcher.cmd = codeReadReg
  ackCommand : s.dispatcher.cst = .sendAck → isCommandCode s.dispatcher.cmd = true
  frameOperands : s.transactor.tst ≠ .idle →
    s.transactor.op = (s.dispatcher.cmd == codeWriteReg) ∧
      s.transactor.treg = s.dispatcher.creg ∧
      (s.transactor.op = true → s.transactor.twdata = s.dispatcher.cwdata)
  frameWrites : s.transactor.tst = .wdata → s.transactor.op = true
  frameReads : s.transactor.tst = .rdata → s.transactor.op = false
  idleNotIssued : s.transactor.tst = .idle → s.transactor.issued = false
  addrIndex : s.transactor.tst = .addr → s.transactor.idx.toNat < s.cfg.addrBits
  dataIndex : s.transactor.tst = .wdata ∨ s.transactor.tst = .rdata →
    s.transactor.idx.toNat < s.cfg.dataBits
  otherIndex : s.transactor.tst ≠ .addr → s.transactor.tst ≠ .wdata → s.transactor.tst ≠ .rdata →
    s.transactor.idx = 0
  symbolWanted : s.emitter.inSymbol = true →
    s.transactor.emitting = true ∧ s.transactor.issued = true
  finishWanted : s.emitter.efin = true →
    s.emitter.est = .idle ∧ s.transactor.emitting = true ∧ s.transactor.issued = true
  symbolComes : s.transactor.emitting = true → s.transactor.issued = true →
    s.emitter.inSymbol = true ∨ s.emitter.efin = true
  stopSymbol : s.emitter.est = .stop → s.transactor.tst = .stop
  bitSymbol : s.emitter.est = .space ∨ s.emitter.est = .mark → s.transactor.tst ≠ .stop
  bitReadWanted : s.decoder.dst ≠ .idle →
    s.transactor.tst = .rdata ∧ s.transactor.issued = true ∧ s.decoder.dfin = false
  bitReadDone : s.decoder.dfin = true →
    s.decoder.dst = .idle ∧ s.transactor.tst = .rdata ∧ s.transactor.issued = true
  bitReadComes : s.transactor.tst = .rdata → s.transactor.issued = true →
    s.decoder.dst ≠ .idle ∨ s.decoder.dfin = true

/-- The step of this cycle is a cycle of the core: accepted configuration, no reset, contract kept. -/
def State.runs (s : State) : Bool := s.cfg.accepted && !s.inputs.rst && s.linkKept

/-- No X3 in this cycle (R175). -/
def State.noConflict (s : State) : Bool := !s.transactor.conflict s.transactorIn

/-- The symbol of a bit (R89, R91). -/
def bitInstr (b : Bool) : Instr := if b then .emitBit1 else .emitBit0

/-- Bits `n - 1` down to 0 of a value, as symbols (R70, R96). -/
def bitsDown (bit : Nat → Bool) : Nat → List Instr
  | 0 => []
  | n + 1 => bitInstr (bit n) :: bitsDown bit n

/-- The requests of a write frame, in order (R95); the source's build has 7 address bits and 32 data
bits (R8). -/
def writeFrame (c : Config) (reg : Addr) (data : Data) : List Instr :=
  .emitStart :: (bitsDown reg.getLsbD c.addrBits ++
    (.emitBit1 :: (bitsDown data.getLsbD c.dataBits ++ [.emitStop])))

/-- The requests of a read frame, in order (R95). -/
def readFrame (c : Config) (reg : Addr) : List Instr :=
  .emitStart :: (bitsDown reg.getLsbD c.addrBits ++
    (.emitBit0 :: (List.replicate c.dataBits .readBit ++ [.emitStop])))

/-- What follows the address bits in a transactor's frame. -/
def Transactor.tailAfterAddr (c : Config) (t : Transactor) : List Instr :=
  bitInstr t.op ::
    ((if t.op then bitsDown t.twdata.getLsbD c.dataBits else List.replicate c.dataBits .readBit) ++
      [.emitStop])

/-- The requests of the transaction in flight that have not finished, the current one first (R95,
R178 to R183). -/
def Transactor.remaining (c : Config) (t : Transactor) : List Instr :=
  match t.tst with
  | .idle => []
  | .start => .emitStart :: (bitsDown t.treg.getLsbD c.addrBits ++ t.tailAfterAddr c)
  | .addr => bitsDown t.treg.getLsbD (t.idx.toNat + 1) ++ t.tailAfterAddr c
  | .dir => t.tailAfterAddr c
  | .wdata => bitsDown t.twdata.getLsbD (t.idx.toNat + 1) ++ [.emitStop]
  | .rdata => List.replicate (t.idx.toNat + 1) .readBit ++ [.emitStop]
  | .stop => [.emitStop]

/-- A tick source after `n` cycles. -/
def TickSource.after (rate clk : Nat) (t : TickSource) : Nat → TickSource
  | 0 => t
  | n + 1 => (t.after rate clk n).next rate clk

/-- The ticks of a tick source in its first `n` cycles. -/
def TickSource.count (rate clk : Nat) (t : TickSource) : Nat → Nat
  | 0 => 0
  | n + 1 => t.count rate clk n + (if (t.after rate clk n).tick rate clk then 1 else 0)

/-- The ticks in a list of cycles. -/
def tickCount (ticks : List Bool) : Nat := ticks.count true

/-- The emitter over cycles whose EBT ticks are listed, no request being accepted. -/
def BitEmitter.over (c : Config) (e : BitEmitter) (ticks : List Bool) : BitEmitter :=
  ticks.foldl (fun e tick => e.phase c false tick) e

/-- The decoder over cycles whose line levels and DBT ticks are listed, without a request. -/
def BitDecoder.over (c : Config) (b : BitDecoder) (cycles : List (Bool × Bool)) : BitDecoder :=
  cycles.foldl (fun b x => b.phase c x.1 x.2) b

/-- The transactor over a list of bits read, each with its error flag and at its `finish` (R182). -/
def Transactor.readBits (c : Config) (t : Transactor) (bits : List (Bool × Bool)) : Transactor :=
  bits.foldl (fun t b => t.afterRdata c b.1 b.2) t

/-- The environment after `n` cycles without an acknowledgement to ByteLink. Acknowledgements change
only what ByteLink must go on offering, never `rst`, `tx_ready` or the target. -/
def Env.skip (e : Env) : Nat → Env
  | 0 => e
  | n + 1 => (e.skip n).next false

/-- None of the first `n` cycles of an environment has `rst` = 1. -/
def Env.noReset (e : Env) (n : Nat) : Prop := ∀ k, k < n → (e.skip k).inputs.rst = false

end Sys2Proof.Machine
end

