-- ==== Sys2Proof/Certificates/Slice0/Obligations.lean ====
section
/-! DEFINITION. The statements about the core, each from the spec's rules named in its comment and in
OBLIGATIONS.json. There is no memory and no exception on this hardware (R60, R270), so no statement
is about either. -/

open Sys2Proof Sys2Proof.Machine

/-! ## Encodings -/

/-- R80, R82, R84 to R86, R88 to R90: in every build, every instruction of the opcode table is read
back from its encoding, with every operand. With the 7 address bits of R8 every register address is
an operand. -/
def Obligations.DecodeOfEncodeIsTheInstruction : Prop :=
  ∀ (cfg : Config) (i : Instr),
    (i.wellFormed cfg = true → decode cfg (encode cfg i) = .ok i) ∧
    (cfg.addrBits = 7 → (∀ b, i ≠ .ignored b) → i.wellFormed cfg = true)

/-- Decoding gives instructions of the opcode table only, and none of another port. -/
def Obligations.DecodedInstructionBelongsToItsPort : Prop :=
  ∀ (cfg : Config) (w : PortWord) (i : Instr), decode cfg w = .ok i →
    i.wellFormed cfg = true ∧ i.port = w.port

/-- R80, R83: the first byte alone fixes the length of a frame; with that many operand bytes the
frame is an instruction and what follows is left; with fewer it is refused as incomplete. -/
def Obligations.FirstByteFixesFrameLength : Prop :=
  ∀ (cfg : Config) (c : Byte) (n : Nat), n = (if c = 0x77#8 then 5 else if c = 0x72#8 then 1 else 0) →
    (∀ ops rest : List Byte, ops.length = n →
      ∃ i, decodeFrame cfg (c :: (ops ++ rest)) = .ok (i, rest)) ∧
    (∀ ops : List Byte, ops.length < n → decodeFrame cfg (c :: ops) = .error .frameIncomplete)

/-- R84: a first byte that is none of the five codes is a one-byte IGNORED frame. -/
def Obligations.OtherFirstBytesAreIgnoredFrames : Prop :=
  ∀ (cfg : Config) (c : Byte) (rest : List Byte),
    c ≠ 0x3F#8 → c ≠ 0x50#8 → c ≠ 0x70#8 → c ≠ 0x72#8 → c ≠ 0x77#8 →
    decodeFrame cfg (c :: rest) = .ok (.ignored c, rest)

/-- R68, R85: the register operand is its byte without bit 7 (with the 7 address bits of R8; with
fewer, without the bits above them: the model's reading, log entry 3), and the four data bytes
stand least significant first. -/
def Obligations.FrameOperandsAreAssembled : Prop :=
  ∀ (cfg : Config) (r b0 b1 b2 b3 : Byte), cfg.accepted = true →
    ∃ (a : Addr) (d : Data),
      decodeFrame cfg [0x77#8, r, b0, b1, b2, b3] = .ok (.writeReg a d, []) ∧
      decodeFrame cfg [0x72#8, r] = .ok (.readReg a, []) ∧
      (cfg.addrBits = 7 → a.toNat = r.toNat % 128) ∧
      a.toNat = r.toNat % 2 ^ cfg.addrBits ∧
      d.toNat = b0.toNat + 256 * b1.toNat + 65536 * b2.toNat + 16777216 * b3.toNat

/-- Words written out from R82, R88, R89, R90 and the source's scenarios (R97, R98), in a build with
the values of R8. -/
def Obligations.WrittenOutWordsDecode : Prop :=
  ∀ (clk : Nat) (power : Bool),
    decode (Config.source clk power) (.host [0x3F#8]) = .ok .test ∧
    decode (Config.source clk power) (.host [0x70#8]) = .ok .powerOn ∧
    decode (Config.source clk power) (.host [0x50#8]) = .ok .powerOff ∧
    decode (Config.source clk power) (.host [0x77#8, 0x7A#8, 0x15#8, 0xCA#8, 0xAA#8, 0x55#8]) =
      .ok (.writeReg 0x7A#7 0x55AACA15#32) ∧
    decode (Config.source clk power) (.host [0x72#8, 0x35#8]) = .ok (.readReg 0x35#7) ∧
    decode (Config.source clk power) (.host [0x78#8]) = .ok (.ignored 0x78#8) ∧
    decode (Config.source clk power) (.output 0x21#8) = .ok .greeting ∧
    decode (Config.source clk power) (.start 0b10#2 0x7A#7 0x55AACA15#32) = .ok (.startWrite 0x7A#7 0x55AACA15#32) ∧
    decode (Config.source clk power) (.start 0b01#2 0x35#7 0x0#32) = .ok (.startRead 0x35#7) ∧
    decode (Config.source clk power) (.emit 0b100#3) = .ok .emitBit0 ∧
    decode (Config.source clk power) (.emit 0b111#3) = .ok .emitStop ∧
    decode (Config.source clk power) (.dec 0b1#1) = .ok .readBit

/-! ## The step -/

/-- A step runs the instruction that any of its ports carries; that its meaning is the whole cycle is
the model's reading, log entry 6. -/
def Obligations.StepRunsAnyCarriedInstruction : Prop :=
  ∀ (s : State) (p : Port) (w : PortWord) (i : Instr), s.runs = true →
    s.portWord p = some w → decode s.cfg w = .ok i → step s = exec i s

/-- What a step does where it runs no instruction: it refuses a configuration (a clock below R9's
bound; that the relations of R10 and the widths of the registers refuse one too is the model's
choice, log entry 10), resets (R112, R300), refuses a broken link (R304; the model's choice, log
entry 5), or is the plain cycle. -/
def Obligations.StepAroundTheInstruction : Prop :=
  ∀ s : State,
    (s.cfg.accepted = false → step s = .refused .configRefused) ∧
    (s.cfg.accepted = true → s.inputs.rst = true → step s = .next s.resetNow) ∧
    (s.cfg.accepted = true → s.inputs.rst = false → s.linkKept = false →
      step s = .refused .byteLinkBroken) ∧
    (s.runs = true → (∀ p, s.carried p = none) → step s = s.cycle)

/-- R110, R112: whatever its ports carry, a step is one lockstep cycle of all components and tick
sources, each from the current registers alone; only X3 has no successor (R175, R273). -/
def Obligations.StepIsOneLockstepCycle : Prop :=
  ∀ s : State, s.runs = true →
    step s =
      if s.transactor.tst = .idle ∧ s.dispatcher.swR = true ∧ s.dispatcher.srR = true then
        .fault .conflictingStart
      else .next (s.advanced s.dispatcherNext (s.transactor.next s.cfg s.transactorIn) s.emitterNext
        s.decoderNext)

/-- R35, R300: a cycle with `rst` = 1 leads to the reset value of every register. -/
def Obligations.RstLeadsToResetState : Prop :=
  ∀ s : State, s.cfg.accepted = true → s.inputs.rst = true →
    ∃ t, step s = .next t ∧ t.cfg = s.cfg ∧ t.ems = ⟨0⟩ ∧ t.ebt = ⟨0⟩ ∧ t.dbt = ⟨0⟩ ∧
      t.emitter = { est := .attachHigh, msCnt := BitVec.ofNat 5 s.cfg.attachHighMs, bcnt := 0,
                    efin := false } ∧
      t.decoder = { dst := .idle, dcnt := 0, mcnt := 0, dbit := false, derr := false,
                    dfin := false } ∧
      t.transactor = { tst := .idle, issued := false, idx := 0, op := false, treg := 0,
                       twdata := 0, rshift := 0, rerr := false, tdone := false } ∧
      t.dispatcher = { cst := .init, cmd := 0, creg := 0, cwdata := 0, crdata := 0, cidx := 0,
                       power := s.cfg.powerReset, rxAckR := false, txStartR := false, txDataR := 0,
                       swR := false, srR := false }

/-- R9: with the source's constants, exactly the clocks of at least 8 MHz have a meaning. -/
def Obligations.SlowClocksAreRefused : Prop :=
  ∀ (clk : Nat) (power : Bool),
    (8000000 ≤ clk → (Config.source clk power).accepted = true) ∧
    (∀ s : State, s.cfg = Config.source clk power → clk < 8000000 →
      step s = .refused .configRefused)

/-- A step is refused only for the configuration or for a broken ByteLink contract. Of the first, R9
gives the clocks; configurations that break R10 or do not fit the registers are refused by the
model's choice, log entry 10. The refusal of the contract is log entry 5. -/
def Obligations.StepRefusesOnlyTheOutside : Prop :=
  ∀ (s : State) (r : Refusal), step s = .refused r →
    (r = .configRefused ∧ s.cfg.accepted = false) ∨
    (r = .byteLinkBroken ∧ s.linkKept = false ∧ s.inputs.rst = false)

/-- R118, R119: each tick source adds its rate in every cycle, and where that reaches CLK_HZ it ticks
and CLK_HZ is subtracted; EMS runs at MS_RATE_HZ, EBT and DBT at BIT_RATE_HZ. -/
def Obligations.TickSourcesAccumulate : Prop :=
  ∀ s : State, s.runs = true → s.noConflict = true →
    ∃ t, step s = .next t ∧
      t.ems.acc = (if s.ems.acc + s.cfg.msRateHz ≥ s.cfg.clkHz
        then s.ems.acc + s.cfg.msRateHz - s.cfg.clkHz else s.ems.acc + s.cfg.msRateHz) ∧
      t.ebt.acc = (if s.ebt.acc + s.cfg.bitRateHz ≥ s.cfg.clkHz
        then s.ebt.acc + s.cfg.bitRateHz - s.cfg.clkHz else s.ebt.acc + s.cfg.bitRateHz) ∧
      t.dbt.acc = (if s.dbt.acc + s.cfg.bitRateHz ≥ s.cfg.clkHz
        then s.dbt.acc + s.cfg.bitRateHz - s.cfg.clkHz else s.dbt.acc + s.cfg.bitRateHz) ∧
      s.msTick = decide (s.ems.acc + s.cfg.msRateHz ≥ s.cfg.clkHz) ∧
      s.ebTick = decide (s.ebt.acc + s.cfg.bitRateHz ≥ s.cfg.clkHz) ∧
      s.dTick = decide (s.dbt.acc + s.cfg.bitRateHz ≥ s.cfg.clkHz)

/-- R132 to R135 and R142 to R147: the dispatcher's registers after a step, state by state. The
greeting, the ack and the bits of a register address are those of the build, with R8's values in
the source's; what fewer address bits than 7 mean is the model's reading, log entry 3. -/
def Obligations.DispatcherFollowsItsStateRules : Prop :=
  ∀ (s : State) (d q : Dispatcher) (rxOk txOk : Bool), s.runs = true → s.noConflict = true →
    d = s.dispatcher →
    q = { d with rxAckR := false, txStartR := false, swR := false, srR := false } →
    rxOk = (s.inputs.rxReady && !d.rxAckR) → txOk = (s.inputs.txReady && !d.txStartR) →
    (∀ clk power, s.cfg = Config.source clk power →
      s.cfg.greetingByte = 0x21#8 ∧ s.cfg.ackByte = 0x2B#8 ∧
      regOfByte s.cfg s.inputs.rxData = s.inputs.rxData.setWidth 7) ∧
    ∃ t, step s = .next t ∧ t.dispatcher =
      match d.cst with
      | .init =>
        if txOk && s.tReady then
          { q with txDataR := s.cfg.greetingByte, txStartR := true, cst := .waitCmd }
        else q
      | .waitCmd =>
        if rxOk then { q with cmd := s.inputs.rxData, rxAckR := true, cst := .dispatch } else q
      | .dispatch =>
        if d.cmd = 0x3F#8 then { q with cst := .sendAck }
        else if d.cmd = 0x70#8 then { q with power := true, cst := .sendAck }
        else if d.cmd = 0x50#8 then { q with power := false, cst := .sendAck }
        else if d.cmd = 0x77#8 then { q with cst := .recvReg }
        else if d.cmd = 0x72#8 then { q with cst := .recvReg }
        else { q with cst := .waitCmd }
      | .recvReg =>
        if rxOk then
          if d.cmd = 0x77#8 then
            { q with creg := regOfByte s.cfg s.inputs.rxData, rxAckR := true, cst := .recvData,
                     cidx := 0 }
          else
            { q with creg := regOfByte s.cfg s.inputs.rxData, rxAckR := true, cst := .startTx }
        else q
      | .recvData =>
        if rxOk then
          if d.cidx = 3 then
            { q with cwdata := insertLane d.cwdata d.cidx s.inputs.rxData, rxAckR := true,
                     cst := .startTx, cidx := 0 }
          else
            { q with cwdata := insertLane d.cwdata d.cidx s.inputs.rxData, rxAckR := true,
                     cidx := d.cidx + 1 }
        else q
      | .startTx =>
        if d.cmd = 0x77#8 then { q with swR := true, cst := .waitDone }
        else { q with srR := true, cst := .waitDone }
      | .waitDone =>
        if s.transactor.tdone then
          if d.cmd = 0x77#8 then { q with cst := .sendAck }
          else { q with crdata := s.transactor.rshift, cidx := 0, cst := .sendData }
        else q
      | .sendData =>
        if txOk then
          if d.cidx = 3 then
            { q with txDataR := byteLane d.crdata d.cidx, txStartR := true, cst := .sendAck,
                     cidx := 0 }
          else
            { q with txDataR := byteLane d.crdata d.cidx, txStartR := true, cidx := d.cidx + 1 }
        else q
      | .sendAck =>
        if txOk then { q with txDataR := s.cfg.ackByte, txStartR := true, cst := .waitCmd }
        else q

/-- R125: a byte-lane insert replaces its lane and leaves the other three. -/
def Obligations.LaneInsertReplacesOneLane : Prop :=
  ∀ (v : Data) (i : BitVec 2) (b : Byte) (k : Nat), k < 32 →
    (insertLane v i b).getLsbD k =
      (if k / 8 = i.toNat then b.getLsbD (k % 8) else v.getLsbD k) ∧
    (∀ j, j < 8 → (byteLane v i).getLsbD j = v.getLsbD (8 * i.toNat + j))

/-- R172 to R174 and R177 to R183: the request the transactor makes in each state while none is
issued, and its registers after a step, state by state. The first bits sent are the top ones of an
address and a word of the build, 6 and 31 with R8's widths; what smaller widths mean is the model's
reading, log entry 3. -/
def Obligations.TransactorFollowsItsStateRules : Prop :=
  ∀ (s : State) (x q : Transactor) (topAddr topData : BitVec 5), s.runs = true →
    s.noConflict = true → x = s.transactor → q = { x with tdone := false } →
    topAddr.toNat + 1 = s.cfg.addrBits → topData.toNat + 1 = s.cfg.dataBits →
    (∀ clk power, s.cfg = Config.source clk power → topAddr = 6 ∧ topData = 31) ∧
    (x.issued = false →
      (x.tst = .start → s.carried .emitterRequest = some .emitStart) ∧
      (x.tst = .addr →
        s.carried .emitterRequest = some (bitInstr (x.treg.getLsbD x.idx.toNat))) ∧
      (x.tst = .dir → s.carried .emitterRequest = some (bitInstr x.op)) ∧
      (x.tst = .wdata →
        s.carried .emitterRequest = some (bitInstr (x.twdata.getLsbD x.idx.toNat))) ∧
      (x.tst = .rdata → s.carried .decoderRequest = some .readBit) ∧
      (x.tst = .stop → s.carried .emitterRequest = some .emitStop)) ∧
    (x.issued = true →
      s.carried .emitterRequest = none ∧ s.carried .decoderRequest = none) ∧
    ∃ t, step s = .next t ∧ t.transactor =
      match x.tst with
      | .idle =>
        if s.dispatcher.swR then
          { q with op := true, treg := s.dispatcher.creg, twdata := s.dispatcher.cwdata,
                   rerr := false, issued := false, tst := .start }
        else if s.dispatcher.srR then
          { q with op := false, treg := s.dispatcher.creg, rerr := false, issued := false,
                   tst := .start }
        else q
      | .start =>
        if !x.issued then { q with issued := true }
        else if s.emitter.efin then { q with tst := .addr, idx := topAddr, issued := false }
        else q
      | .addr =>
        if !x.issued then { q with issued := true }
        else if s.emitter.efin then
          (if x.idx = 0 then { q with tst := .dir, issued := false }
           else { q with idx := x.idx - 1, issued := false })
        else q
      | .dir =>
        if !x.issued then { q with issued := true }
        else if s.emitter.efin then
          { q with tst := if x.op then .wdata else .rdata, idx := topData, issued := false }
        else q
      | .wdata =>
        if !x.issued then { q with issued := true }
        else if s.emitter.efin then
          (if x.idx = 0 then { q with tst := .stop, issued := false }
           else { q with idx := x.idx - 1, issued := false })
        else q
      | .rdata =>
        if !x.issued then { q with issued := true }
        else if s.decoder.dfin then
          (if x.idx = 0 then
            { q with tst := .stop, issued := false, rerr := x.rerr || s.decoder.derr,
                     rshift := BitVec.ofNat 32
                       ((2 * x.rshift.toNat + s.decoder.dbit.toNat) % 2 ^ s.cfg.dataBits) }
           else
            { q with idx := x.idx - 1, issued := false, rerr := x.rerr || s.decoder.derr,
                     rshift := BitVec.ofNat 32
                       ((2 * x.rshift.toNat + s.decoder.dbit.toNat) % 2 ^ s.cfg.dataBits) })
        else q
      | .stop =>
        if !x.issued then { q with issued := true }
        else if s.emitter.efin then
          { q with tst := .idle, tdone := true, idx := 0, issued := false }
        else q

/-- R202 to R205 and R210 to R213: the emitter's registers after a step, state by state, from the
transactor's request (R171). -/
def Obligations.EmitterFollowsItsStateRules : Prop :=
  ∀ (s : State) (e q : BitEmitter), s.runs = true → s.noConflict = true → e = s.emitter →
    q = { e with efin := false } →
    (e.est = .idle → e.line = .released) ∧
    ∃ t, step s = .next t ∧ t.emitter =
      match e.est with
      | .attachHigh =>
        if s.msTick then
          if e.msCnt = 1 then
            { q with est := .attachLow, msCnt := BitVec.ofNat 5 s.cfg.attachLowMs }
          else { q with msCnt := e.msCnt - 1 }
        else q
      | .attachLow =>
        if s.msTick then
          if e.msCnt = 1 then { q with est := .idle } else { q with msCnt := e.msCnt - 1 }
        else q
      | .idle =>
        if s.transactor.emitReq then
          if s.transactor.emitKind = 0b00#2 then
            { q with est := .space, bcnt := BitVec.ofNat 5 s.cfg.space0Ticks }
          else if s.transactor.emitKind = 0b11#2 then
            { q with est := .stop, bcnt := BitVec.ofNat 5 s.cfg.stopTicks }
          else { q with est := .space, bcnt := BitVec.ofNat 5 s.cfg.space1Ticks }
        else q
      | .space =>
        if s.ebTick then
          if e.bcnt = 1 then { q with est := .mark, bcnt := BitVec.ofNat 5 s.cfg.markTicks }
          else { q with bcnt := e.bcnt - 1 }
        else q
      | .mark =>
        if s.ebTick then
          if e.bcnt = 1 then { q with est := .idle, efin := true }
          else { q with bcnt := e.bcnt - 1 }
        else q
      | .stop =>
        if s.ebTick then
          if e.bcnt = 1 then { q with est := .idle, efin := true }
          else { q with bcnt := e.bcnt - 1 }
        else q

/-- R242 to R248: the decoder's registers after a step, state by state. -/
def Obligations.DecoderFollowsItsStateRules : Prop :=
  ∀ (s : State) (b q : BitDecoder), s.runs = true → s.noConflict = true → b = s.decoder →
    q = { b with dfin := false } →
    ∃ t, step s = .next t ∧
      (b.dst = .finish → t.decoder.derr = true → t.decoder.dbit = false) ∧ t.decoder =
      match b.dst with
      | .idle =>
        if s.transactor.decReq then
          (if s.swioIn = false then { q with dcnt := 0, dst := .capture }
           else { q with dcnt := 0, dst := .setup })
        else q
      | .setup => if s.swioIn = false then { q with dst := .capture } else q
      | .capture =>
        if s.swioIn = true then { q with dst := .finish }
        else if s.dTick then
          (if b.dcnt + 1 = BitVec.ofNat 7 s.cfg.decErrTicks then
            { q with dcnt := b.dcnt + 1, dst := .finish }
           else { q with dcnt := b.dcnt + 1 })
        else q
      | .finish =>
        { q with dbit := decide (b.dcnt.toNat ≤ s.cfg.decOneMaxTicks),
                 derr := decide (b.dcnt.toNat = s.cfg.decErrTicks), dst := .waitMark,
                 mcnt := BitVec.ofNat 3 s.cfg.decMarkTicks }
      | .waitMark =>
        if s.dTick then
          if b.mcnt = 1 then { q with dst := .idle, dfin := true }
          else { q with mcnt := b.mcnt - 1 }
        else q

/-- R115, R201: what the emitter's state puts on the line, and its readiness. -/
def Obligations.EmitterOutputsFollowTheTable : Prop :=
  ∀ e : BitEmitter,
    (e.swioOe, e.swioOut, e.line, e.ready) =
      match e.est with
      | .attachHigh => (true, true, .drivingHigh, false)
      | .attachLow => (true, false, .drivingLow, false)
      | .idle => (false, false, .released, true)
      | .space => (true, false, .drivingLow, true)
      | .mark => (true, true, .drivingHigh, true)
      | .stop => (false, false, .released, true)

/-- R115, R116: what the core reads on the line, by what it drives and what the target does. Under
contention nothing is said. That both pulling low reads 0 is the model's inference (log entry 4). -/
def Obligations.LineLevelFollowsItsDrivers : Prop :=
  ∀ s : State,
    (s.emitter.swioOe = false → s.swioIn = !s.inputs.targetLow) ∧
    (s.emitter.swioOe = true → s.inputs.targetLow = false → s.swioIn = s.emitter.swioOut) ∧
    (s.emitter.swioOe = true → s.emitter.swioOut = false → s.swioIn = false)

/-! ## What each instruction does -/

/-- TEST, POWER_ON, POWER_OFF and IGNORED in DISPATCH (R135 to R138, R141): power is set, cleared or
left, the ack is due or not, and every other component takes its own step. -/
def Obligations.OneByteCommandsInDispatch : Prop :=
  ∀ (s : State) (c : Byte) (q : Dispatcher), s.noConflict = true →
    s.dispatcher.cst = .dispatch →
    q = { s.dispatcher with rxAckR := false, txStartR := false, swR := false, srR := false } →
    exec .test s = .next (s.advanced { q with cst := .sendAck }
      (s.transactor.next s.cfg s.transactorIn) s.emitterNext s.decoderNext) ∧
    exec .powerOn s = .next (s.advanced { q with cst := .sendAck, power := true }
      (s.transactor.next s.cfg s.transactorIn) s.emitterNext s.decoderNext) ∧
    exec .powerOff s = .next (s.advanced { q with cst := .sendAck, power := false }
      (s.transactor.next s.cfg s.transactorIn) s.emitterNext s.decoderNext) ∧
    exec (.ignored c) s = .next (s.advanced { q with cst := .waitCmd }
      (s.transactor.next s.cfg s.transactorIn) s.emitterNext s.decoderNext)

/-- In WAIT_CMD every host command has its command byte taken when one is offered, and waits otherwise
(R134). The command byte is the instruction's own, whatever byte is offered: the model's reading of
an instruction, log entry 6. Where the byte offered is the command's, it is R134's `cmd <- rx_data`. -/
def Obligations.CommandByteIsTaken : Prop :=
  ∀ (s : State) (i : Instr) (c : Byte) (ops : List Byte) (q : Dispatcher),
    s.noConflict = true → s.dispatcher.cst = .waitCmd → encode s.cfg i = .host (c :: ops) →
    q = { s.dispatcher with rxAckR := false, txStartR := false, swR := false, srR := false } →
    exec i s = .next (s.advanced
      (if s.inputs.rxReady = true ∧ s.dispatcher.rxAckR = false then
        { q with cmd := c, rxAckR := true, cst := .dispatch } else q)
      (s.transactor.next s.cfg s.transactorIn) s.emitterNext s.decoderNext)

/-- R147: in SEND_ACK every recognised command hands over ACK_BYTE, `'+'` in the source's build, when
ByteLink can accept it, and waits otherwise. -/
def Obligations.AckIsHandedOver : Prop :=
  ∀ (s : State) (i : Instr) (reg : Addr) (data : Data) (q : Dispatcher),
    s.noConflict = true → s.dispatcher.cst = .sendAck →
    i = .test ∨ i = .powerOn ∨ i = .powerOff ∨ i = .writeReg reg data ∨ i = .readReg reg →
    q = { s.dispatcher with rxAckR := false, txStartR := false, swR := false, srR := false } →
    (∀ clk power, s.cfg = Config.source clk power → s.cfg.ackByte = 0x2B#8) ∧
    exec i s = .next (s.advanced
      (if s.inputs.txReady = true ∧ s.dispatcher.txStartR = false then
        { q with txDataR := s.cfg.ackByte, txStartR := true, cst := .waitCmd } else q)
      (s.transactor.next s.cfg s.transactorIn) s.emitterNext s.decoderNext)

/-- WRITE_REG across its states (R139, R142 to R145): register, four data bytes, the start pulse, the
wait for `t_done`. -/
def Obligations.WriteRegAcrossItsStates : Prop :=
  ∀ (s : State) (reg : Addr) (data : Data) (q : Dispatcher), s.noConflict = true →
    s.dispatcher.cst ≠ .init → s.dispatcher.cst ≠ .waitCmd → s.dispatcher.cst ≠ .sendData →
    s.dispatcher.cst ≠ .sendAck →
    q = { s.dispatcher with rxAckR := false, txStartR := false, swR := false, srR := false } →
    exec (.writeReg reg data) s = .next (s.advanced
      (if s.dispatcher.cst = .dispatch then { q with cst := .recvReg }
       else if s.dispatcher.cst = .recvReg then
        (if s.rxOk then { q with creg := reg, rxAckR := true, cst := .recvData, cidx := 0 } else q)
       else if s.dispatcher.cst = .recvData then
        (if s.rxOk then
          { q with
            cwdata := insertLane s.dispatcher.cwdata s.dispatcher.cidx
              (byteLane data s.dispatcher.cidx)
            rxAckR := true
            cst := if s.dispatcher.cidx = 3 then .startTx else .recvData
            cidx := if s.dispatcher.cidx = 3 then 0 else s.dispatcher.cidx + 1 }
         else q)
       else if s.dispatcher.cst = .startTx then { q with swR := true, cst := .waitDone }
       else (if s.transactor.tdone then { q with cst := .sendAck } else q))
      (s.transactor.next s.cfg s.transactorIn) s.emitterNext s.decoderNext)

/-- READ_REG across its states (R140, R142, R144 to R146): register, the start pulse, the result
captured at `t_done`, its bytes sent least significant first. -/
def Obligations.ReadRegAcrossItsStates : Prop :=
  ∀ (s : State) (reg : Addr) (q : Dispatcher), s.noConflict = true →
    s.dispatcher.cst ≠ .init → s.dispatcher.cst ≠ .waitCmd → s.dispatcher.cst ≠ .recvData →
    s.dispatcher.cst ≠ .sendAck →
    q = { s.dispatcher with rxAckR := false, txStartR := false, swR := false, srR := false } →
    exec (.readReg reg) s = .next (s.advanced
      (if s.dispatcher.cst = .dispatch then { q with cst := .recvReg }
       else if s.dispatcher.cst = .recvReg then
        (if s.rxOk then { q with creg := reg, rxAckR := true, cst := .startTx } else q)
       else if s.dispatcher.cst = .startTx then { q with srR := true, cst := .waitDone }
       else if s.dispatcher.cst = .waitDone then
        (if s.transactor.tdone then
          { q with crdata := s.transactor.rshift, cidx := 0, cst := .sendData } else q)
       else
        (if s.txOk then
          { q with
            txDataR := byteLane s.dispatcher.crdata s.dispatcher.cidx
            txStartR := true
            cst := if s.dispatcher.cidx = 3 then .sendAck else .sendData
            cidx := if s.dispatcher.cidx = 3 then 0 else s.dispatcher.cidx + 1 }
         else q))
      (s.transactor.next s.cfg s.transactorIn) s.emitterNext s.decoderNext)

/-- R68, R69, R143, R146: four data bytes taken one after the other make the word, least significant
first; four result bytes handed over one after the other are the word's, in the same order. -/
def Obligations.FourBytesMakeAWord : Prop :=
  ∀ (p : DispatcherIn) (d : Dispatcher) (b0 b1 b2 b3 : Byte), d.cidx = 0 →
    (p.rxOk = true →
      let d' := (((d.takeData p b0).takeData p b1).takeData p b2).takeData p b3
      d'.cwdata = dataOfBytes b0 b1 b2 b3 ∧ d'.cst = .startTx ∧ d'.cidx = 0) ∧
    (p.txOk = true →
      let d1 := d.sendData p
      let d2 := d1.sendData p
      let d3 := d2.sendData p
      let d4 := d3.sendData p
      [d1.txDataR, d2.txDataR, d3.txDataR, d4.txDataR] = bytesOfData d.crdata ∧
        d4.cst = .sendAck ∧ d4.cidx = 0)

/-- R133: in INIT GREETING_BYTE, `'!'` in the source's build, is sent as soon as the send channel and
the transactor are ready. -/
def Obligations.GreetingWhenBothReady : Prop :=
  ∀ (s : State) (q : Dispatcher), s.noConflict = true → s.dispatcher.cst = .init →
    q = { s.dispatcher with rxAckR := false, txStartR := false, swR := false, srR := false } →
    (∀ clk power, s.cfg = Config.source clk power → s.cfg.greetingByte = 0x21#8) ∧
    exec .greeting s = .next (s.advanced
      (if s.inputs.txReady = true ∧ s.dispatcher.txStartR = false ∧ s.emitter.ready = true ∧
          s.transactor.tst = .idle then
        { q with txDataR := s.cfg.greetingByte, txStartR := true, cst := .waitCmd } else q)
      (s.transactor.next s.cfg s.transactorIn) s.emitterNext s.decoderNext)

/-- START_WRITE in IDLE (R173): operands latched, the error flag cleared, the frame begun. -/
def Obligations.StartWriteInIdle : Prop :=
  ∀ (s : State) (reg : Addr) (data : Data), s.transactor.tst = .idle →
    s.dispatcher.srR = false →
    exec (.startWrite reg data) s = .next (s.advanced s.dispatcherNext
      { s.transactor with op := true, treg := reg, twdata := data, rerr := false, issued := false,
                          tst := .start, tdone := false } s.emitterNext s.decoderNext)

/-- START_READ in IDLE (R174): the register latched, the error flag cleared, the frame begun. -/
def Obligations.StartReadInIdle : Prop :=
  ∀ (s : State) (reg : Addr), s.transactor.tst = .idle → s.dispatcher.swR = false →
    exec (.startRead reg) s = .next (s.advanced s.dispatcherNext
      { s.transactor with op := false, treg := reg, rerr := false, issued := false, tst := .start,
                          tdone := false } s.emitterNext s.decoderNext)

/-- R176: outside IDLE a start has no effect, the cycle is as without it. -/
def Obligations.StartOutsideIdleIsLost : Prop :=
  ∀ (s : State) (reg : Addr) (data : Data) (i : Instr), s.transactor.tst ≠ .idle →
    i = .startWrite reg data ∨ i = .startRead reg →
    exec i s = .next (s.advanced s.dispatcherNext
      (s.transactor.next s.cfg { s.transactorIn with startWrite := false, startRead := false })
      s.emitterNext s.decoderNext)

/-- R175: both starts in IDLE are the fault, whichever of them is looked at; in legal states they
never come together. -/
def Obligations.BothStartsAreTheFault : Prop :=
  ∀ (s : State) (reg : Addr) (data : Data),
    (s.transactor.tst = .idle → s.dispatcher.swR = true → s.dispatcher.srR = true →
      exec (.startWrite reg data) s = .fault .conflictingStart ∧
      exec (.startRead reg) s = .fault .conflictingStart ∧
      (s.runs = true → step s = .fault .conflictingStart)) ∧
    (CoreInv s → ¬(s.dispatcher.swR = true ∧ s.dispatcher.srR = true))

/-- The four requests in IDLE (R205 to R209): the phase and the ticks loaded. -/
def Obligations.EmitRequestsInIdle : Prop :=
  ∀ (s : State) (q : BitEmitter), s.noConflict = true → s.emitter.est = .idle →
    q = { s.emitter with efin := false } →
    exec .emitBit0 s = .next (s.advanced s.dispatcherNext (s.transactor.next s.cfg s.transactorIn)
      { q with est := .space, bcnt := BitVec.ofNat 5 s.cfg.space0Ticks } s.decoderNext) ∧
    exec .emitBit1 s = .next (s.advanced s.dispatcherNext (s.transactor.next s.cfg s.transactorIn)
      { q with est := .space, bcnt := BitVec.ofNat 5 s.cfg.space1Ticks } s.decoderNext) ∧
    exec .emitStart s = .next (s.advanced s.dispatcherNext (s.transactor.next s.cfg s.transactorIn)
      { q with est := .space, bcnt := BitVec.ofNat 5 s.cfg.space1Ticks } s.decoderNext) ∧
    exec .emitStop s = .next (s.advanced s.dispatcherNext (s.transactor.next s.cfg s.transactorIn)
      { q with est := .stop, bcnt := BitVec.ofNat 5 s.cfg.stopTicks } s.decoderNext)

/-- R213: outside IDLE a request changes nothing, the cycle is as without it. -/
def Obligations.EmitRequestOutsideIdleIsIgnored : Prop :=
  ∀ (s : State) (i : Instr), s.noConflict = true → s.emitter.est ≠ .idle →
    i.port = .emitterRequest →
    exec i s = .next (s.advanced s.dispatcherNext (s.transactor.next s.cfg s.transactorIn)
      (s.emitter.phase s.cfg s.msTick s.ebTick) s.decoderNext)

/-- READ_BIT in IDLE (R243): the count cleared; CAPTURE if the line is already low, else SETUP. -/
def Obligations.ReadBitInIdle : Prop :=
  ∀ s : State, s.noConflict = true → s.decoder.dst = .idle →
    exec .readBit s = .next (s.advanced s.dispatcherNext (s.transactor.next s.cfg s.transactorIn)
      s.emitterNext
      { s.decoder with dcnt := 0, dfin := false,
                       dst := if s.swioIn = false then .capture else .setup })

/-- R248: outside IDLE a bit-read request changes nothing. -/
def Obligations.ReadBitOutsideIdleIsIgnored : Prop :=
  ∀ s : State, s.noConflict = true → s.decoder.dst ≠ .idle →
    exec .readBit s = .next (s.advanced s.dispatcherNext (s.transactor.next s.cfg s.transactorIn)
      s.emitterNext (s.decoder.phase s.cfg s.swioIn s.dTick))

/-! ## Frames -/

/-- The frame of every instruction on the dispatcher's registers: each changes only in the states
whose rule assigns it (R29, R132 to R147, R151). -/
def Obligations.DispatcherRegisterFrame : Prop :=
  ∀ (i : Instr) (s t : State), exec i s = .next t →
    t.cfg = s.cfg ∧
    (s.dispatcher.cst ≠ .waitCmd → t.dispatcher.cmd = s.dispatcher.cmd) ∧
    (s.dispatcher.cst ≠ .dispatch → t.dispatcher.power = s.dispatcher.power) ∧
    (s.dispatcher.cst ≠ .recvReg → t.dispatcher.creg = s.dispatcher.creg) ∧
    (s.dispatcher.cst ≠ .recvData → t.dispatcher.cwdata = s.dispatcher.cwdata) ∧
    (s.dispatcher.cst ≠ .waitDone → t.dispatcher.crdata = s.dispatcher.crdata) ∧
    (s.dispatcher.cst ≠ .recvReg → s.dispatcher.cst ≠ .recvData → s.dispatcher.cst ≠ .waitDone →
      s.dispatcher.cst ≠ .sendData → t.dispatcher.cidx = s.dispatcher.cidx) ∧
    (s.dispatcher.cst ≠ .init → s.dispatcher.cst ≠ .sendData → s.dispatcher.cst ≠ .sendAck →
      t.dispatcher.txDataR = s.dispatcher.txDataR) ∧
    (s.dispatcher.cst ≠ .startTx → t.dispatcher.swR = false ∧ t.dispatcher.srR = false)

/-- The frame of every instruction on the transactor's registers: operands and direction change only
at a start, the read result and its error only at the end of a bit read (and the error at a start),
and only RDATA reads bits (R29, R173, R174, R182, R187). -/
def Obligations.TransactorRegisterFrame : Prop :=
  ∀ (i : Instr) (s t : State), exec i s = .next t →
    (s.transactor.tst ≠ .idle → t.transactor.op = s.transactor.op ∧
      t.transactor.treg = s.transactor.treg ∧ t.transactor.twdata = s.transactor.twdata) ∧
    (¬(s.transactor.tst = .rdata ∧ s.transactor.issued = true ∧ s.decoder.dfin = true) →
      t.transactor.rshift = s.transactor.rshift) ∧
    (s.transactor.tst ≠ .idle →
      ¬(s.transactor.tst = .rdata ∧ s.transactor.issued = true ∧ s.decoder.dfin = true) →
      t.transactor.rerr = s.transactor.rerr) ∧
    (t.transactor.op = false → t.transactor.twdata = s.transactor.twdata)

/-- The frame of every instruction on the emitter's and the decoder's registers: each changes only in
the states whose rule assigns it (R29, R202, R242). -/
def Obligations.LineRegisterFrame : Prop :=
  ∀ (i : Instr) (s t : State), exec i s = .next t →
    (s.emitter.est ≠ .attachHigh → s.emitter.est ≠ .attachLow →
      t.emitter.msCnt = s.emitter.msCnt) ∧
    (s.emitter.ready = false → t.emitter.bcnt = s.emitter.bcnt) ∧
    (s.emitter.est ≠ .mark → s.emitter.est ≠ .stop → t.emitter.efin = false) ∧
    (s.decoder.dst ≠ .idle → s.decoder.dst ≠ .capture → t.decoder.dcnt = s.decoder.dcnt) ∧
    (s.decoder.dst ≠ .finish → t.decoder.dbit = s.decoder.dbit ∧
      t.decoder.derr = s.decoder.derr) ∧
    (s.decoder.dst ≠ .finish → s.decoder.dst ≠ .waitMark → t.decoder.mcnt = s.decoder.mcnt) ∧
    (s.decoder.dst ≠ .waitMark → t.decoder.dfin = false)

/-- In a legal state a host command in DISPATCH touches nothing but the dispatcher's control state,
its pulses, and `power` for the two power commands (R67, R136 to R141). -/
def Obligations.HostCommandFrameInDispatch : Prop :=
  ∀ (i : Instr) (s t : State), CoreInv s → s.dispatcher.cst = .dispatch → i.port = .hostLink →
    exec i s = .next t →
    t.transactor = s.transactor ∧ t.emitter = s.emitter ∧ t.decoder = s.decoder ∧
    t.dispatcher.cmd = s.dispatcher.cmd ∧ t.dispatcher.creg = s.dispatcher.creg ∧
    t.dispatcher.cwdata = s.dispatcher.cwdata ∧ t.dispatcher.crdata = s.dispatcher.crdata ∧
    t.dispatcher.cidx = s.dispatcher.cidx ∧ t.dispatcher.txDataR = s.dispatcher.txDataR ∧
    t.dispatcher.rxAckR = false ∧ t.dispatcher.txStartR = false ∧
    t.dispatcher.swR = false ∧ t.dispatcher.srR = false ∧
    (i ≠ .powerOn → i ≠ .powerOff → t.dispatcher.power = s.dispatcher.power)

/-- In a legal state a request inside the core touches the component it is made of, the transactor
that made or took it, and pulses, and nothing else (R29, R114, R186). -/
def Obligations.RequestFrameInsideTheCore : Prop :=
  ∀ (i : Instr) (s t : State) (p : Port), CoreInv s → s.carried p = some i →
    exec i s = .next t →
    (p = .transactorStart → t.emitter = s.emitter ∧ t.decoder = s.decoder ∧
      t.dispatcher =
        { s.dispatcher with rxAckR := false, txStartR := false, swR := false, srR := false } ∧
      t.transactor.rshift = s.transactor.rshift ∧ t.transactor.idx = s.transactor.idx) ∧
    (p = .emitterRequest → t.decoder = s.decoder ∧
      t.dispatcher = { s.dispatcher with rxAckR := false, txStartR := false } ∧
      t.transactor = { s.transactor with issued := true } ∧
      t.emitter.msCnt = s.emitter.msCnt) ∧
    (p = .decoderRequest → t.emitter = s.emitter ∧
      t.dispatcher = { s.dispatcher with rxAckR := false, txStartR := false } ∧
      t.transactor = { s.transactor with issued := true } ∧
      t.decoder.dbit = s.decoder.dbit ∧ t.decoder.derr = s.decoder.derr ∧
      t.decoder.mcnt = s.decoder.mcnt) ∧
    (p = .deviceOutput → t.transactor = s.transactor ∧ t.decoder = s.decoder ∧
      t.dispatcher.cmd = s.dispatcher.cmd ∧ t.dispatcher.creg = s.dispatcher.creg ∧
      t.dispatcher.cwdata = s.dispatcher.cwdata ∧ t.dispatcher.crdata = s.dispatcher.crdata ∧
      t.dispatcher.cidx = s.dispatcher.cidx ∧ t.dispatcher.power = s.dispatcher.power)

/-! ## Whole-machine rules -/

/-- The reset state of every accepted configuration is legal, whatever comes in. -/
def Obligations.ResetStateIsLegal : Prop :=
  ∀ (c : Config) (env : Env), c.accepted = true → CoreInv (State.resetWith c env)

/-- Every step keeps the invariant of the whole core (R186, R218, R305 to R307; legal values R21 to
R28, R125). -/
def Obligations.EveryStepKeepsTheCoreInvariant : Prop :=
  ∀ s t : State, CoreInv s → step s = .next t → CoreInv t

/-- R307: in a legal state X3 does not occur, so no step of a legal run faults. -/
def Obligations.LegalStatesNeverFault : Prop :=
  ∀ (s : State) (f : Fault), CoreInv s → step s ≠ .fault f

/-- R186, R218, R306: in a legal state the core has released the line in every cycle of a bit read,
and the decoder sees the target's own level. -/
def Obligations.LineIsReleasedDuringABitRead : Prop :=
  ∀ s : State, CoreInv s → s.decoder.dst ≠ .idle ∨ s.transactor.tst = .rdata →
    s.emitter.line = .released ∧ s.swioIn = !s.inputs.targetLow

/-- R305, R307: in a legal state every request and start pulse meets a component in IDLE, every
`finish` the transactor waiting for it, and `t_done` the dispatcher waiting for it. -/
def Obligations.EveryPulseIsObserved : Prop :=
  ∀ s : State, CoreInv s →
    (s.transactor.emitReq = true → s.emitter.est = .idle) ∧
    (s.transactor.decReq = true → s.decoder.dst = .idle) ∧
    (s.dispatcher.swR = true ∨ s.dispatcher.srR = true → s.transactor.tst = .idle) ∧
    (s.emitter.efin = true → s.transactor.emitting = true ∧ s.transactor.issued = true) ∧
    (s.decoder.dfin = true → s.transactor.tst = .rdata ∧ s.transactor.issued = true) ∧
    (s.transactor.tdone = true → s.dispatcher.cst = .waitDone)

/-- R123: in a legal run each pulse lasts exactly one cycle. -/
def Obligations.PulsesLastOneCycle : Prop :=
  ∀ s t : State, CoreInv s → step s = .next t →
    (s.emitter.efin = true → t.emitter.efin = false) ∧
    (s.decoder.dfin = true → t.decoder.dfin = false) ∧
    (s.transactor.tdone = true → t.transactor.tdone = false) ∧
    (s.dispatcher.rxAckR = true → t.dispatcher.rxAckR = false) ∧
    (s.dispatcher.txStartR = true → t.dispatcher.txStartR = false) ∧
    (s.dispatcher.swR = true → t.dispatcher.swR = false) ∧
    (s.dispatcher.srR = true → t.dispatcher.srR = false) ∧
    (s.transactor.emitReq = true → t.transactor.emitReq = false) ∧
    (s.transactor.decReq = true → t.transactor.decReq = false)

/-- R32, R151: without reset, power changes only in DISPATCH of `'p'` and `'P'`, to 1 and to 0. -/
def Obligations.PowerChangesOnlyByItsCommands : Prop :=
  ∀ s t : State, step s = .next t → s.inputs.rst = false →
    t.dispatcher.power =
      if s.dispatcher.cst = .dispatch ∧ s.dispatcher.cmd = 0x70#8 then true
      else if s.dispatcher.cst = .dispatch ∧ s.dispatcher.cmd = 0x50#8 then false
      else s.dispatcher.power

/-- R81: a byte is handed to ByteLink only as the greeting in INIT, as a result byte in SEND_DATA, or
as the ack in SEND_ACK; the two are `'!'` and `'+'` in the source's build. -/
def Obligations.OnlyGreetingResultAndAckAreSent : Prop :=
  ∀ s t : State, step s = .next t → t.dispatcher.txStartR = true →
    (s.dispatcher.cst = .init ∧ t.dispatcher.txDataR = s.cfg.greetingByte ∧
      (∀ clk power, s.cfg = Config.source clk power → t.dispatcher.txDataR = 0x21#8)) ∨
    (s.dispatcher.cst = .sendData ∧
      t.dispatcher.txDataR = byteLane s.dispatcher.crdata s.dispatcher.cidx) ∨
    (s.dispatcher.cst = .sendAck ∧ t.dispatcher.txDataR = s.cfg.ackByte ∧
      (∀ clk power, s.cfg = Config.source clk power → t.dispatcher.txDataR = 0x2B#8))

/-- R149: a byte is taken from ByteLink only in WAIT_CMD, RECV_REG and RECV_DATA, and only when one
is offered that was not just acknowledged (R132). -/
def Obligations.BytesAreTakenOnlyWhereAwaited : Prop :=
  ∀ s t : State, step s = .next t → t.dispatcher.rxAckR = true →
    (s.dispatcher.cst = .waitCmd ∨ s.dispatcher.cst = .recvReg ∨ s.dispatcher.cst = .recvData) ∧
    s.inputs.rxReady = true ∧ s.dispatcher.rxAckR = false

/-- R133, R204, R214: without reset the attach handshake and the greeting are never run again, and
`e_ready` does not fall. -/
def Obligations.AttachAndGreetingRunOncePerReset : Prop :=
  ∀ s t : State, step s = .next t → s.inputs.rst = false →
    (s.emitter.ready = true → t.emitter.ready = true) ∧
    (s.emitter.est ≠ .attachHigh → t.emitter.est ≠ .attachHigh) ∧
    (s.dispatcher.cst ≠ .init → t.dispatcher.cst ≠ .init)

/-! ## Time, symbols and frames -/

/-- R120: `acc` after `n` cycles from 0, and the number of ticks in them. -/
def Obligations.TickSourceLaw : Prop :=
  ∀ rate clk n : Nat, 1 ≤ clk → rate ≤ clk →
    ((TickSource.mk 0).after rate clk n).acc = n * rate % clk ∧
    (TickSource.mk 0).count rate clk n = n * rate / clk

/-- R122, R210 to R212, R216: a symbol phase ends in the cycle of exactly as many EBT ticks as were
loaded, wherever the ticks fall: SPACE then goes to MARK, MARK and STOP finish. -/
def Obligations.SymbolPhaseLastsItsTicks : Prop :=
  ∀ (c : Config) (e : BitEmitter) (ticks : List Bool), c.accepted = true →
    e.inSymbol = true → 1 ≤ e.bcnt.toNat →
    (tickCount ticks < e.bcnt.toNat →
      (e.over c ticks).est = e.est ∧
      (e.over c ticks).bcnt.toNat = e.bcnt.toNat - tickCount ticks) ∧
    (tickCount ticks + 1 = e.bcnt.toNat →
      (e.est = .space → (e.over c (ticks ++ [true])).est = .mark ∧
        (e.over c (ticks ++ [true])).bcnt.toNat = c.markTicks ∧
        (e.over c (ticks ++ [true])).efin = false) ∧
      (e.est ≠ .space → (e.over c (ticks ++ [true])).est = .idle ∧
        (e.over c (ticks ++ [true])).efin = true))

/-- R244 to R246, R250: the ticks of a low, counted from the cycle after it is first seen and capped
at the threshold, decide the bit; reaching the threshold is the error. -/
def Obligations.LowDurationDecidesTheBit : Prop :=
  ∀ (c : Config) (b : BitDecoder) (low : List Bool) (tick : Bool), c.accepted = true →
    b.dst = .capture → b.dcnt = 0 →
    (b.over c (low.map fun x => (false, x))).dcnt.toNat = min c.decErrTicks (tickCount low) ∧
    (tickCount low < c.decErrTicks →
      let b1 := b.over c ((low.map fun x => (false, x)) ++ [(true, tick)])
      b1.dst = .finish ∧ (b1.classify c).dbit = decide (tickCount low ≤ c.decOneMaxTicks) ∧
        (b1.classify c).derr = false) ∧
    (tickCount low + 1 = c.decErrTicks →
      let b1 := b.over c ((low ++ [true]).map fun x => (false, x))
      b1.dst = .finish ∧ (b1.classify c).dbit = false ∧ (b1.classify c).derr = true)

/-- R10, R92, R246: the COUNTS that fall on the two sides of the guard band. Counts up to SPACE1_TICKS
are a 1; SPACE0_TICKS is a 0, and so is one tick less, which is what the emitter's own 0 counts as
at 8 MHz (the first low cycle is not counted, R250), where the guard band leaves a tick of room
(DEC_ONE_MAX_TICKS + 1 < SPACE0_TICKS, as the source's 4 and 8 do); a stuck line is never read
as 1. -/
def Obligations.ShapesAreToldApart : Prop :=
  ∀ (c : Config) (n : BitVec 7), c.accepted = true →
    (n.toNat ≤ c.space1Ticks → classifyBit c n = true ∧ classifyError c n = false) ∧
    (n.toNat = c.space0Ticks → classifyBit c n = false ∧ classifyError c n = false) ∧
    (c.decOneMaxTicks + 1 < c.space0Ticks → n.toNat + 1 = c.space0Ticks →
      classifyBit c n = false ∧ classifyError c n = false) ∧
    (∀ clk power, (Config.source clk power).decOneMaxTicks + 1 <
      (Config.source clk power).space0Ticks) ∧
    (classifyError c n = true → classifyBit c n = false)

/-- R96, R182, R188: DATA_BITS bits (32 in the source's build) read one after the other, each with its
error flag, make the word with the first bit at the top, whatever stood in the shift register; the
bits of a word, most significant first, read back as the word. The error flag afterwards is the flag
before or any of the bits' errors, so that at `t_done` a read, whose start clears it (R174), has
`read_error` 1 exactly when a bit had the error, and a write (R173), which reads no bit, has 0. What
fewer data bits than 32 mean is the model's reading, log entry 3. -/
def Obligations.BitsReadMakeTheWord : Prop :=
  ∀ (c : Config) (t : Transactor), c.accepted = true →
    (∀ bits : List (Bool × Bool),
      (bits.length = c.dataBits → ∀ k, (t.readBits c bits).rshift.getLsbD k =
        (decide (k < c.dataBits) && (bits.map Prod.fst).getD (c.dataBits - 1 - k) false)) ∧
      (t.readBits c bits).rerr = (t.rerr || bits.any Prod.snd) ∧
      (∀ reg : Addr, ((t.acceptRead reg).readBits c bits).afterStop.rerr = bits.any Prod.snd ∧
        ((t.acceptRead reg).readBits c bits).afterStop.tdone = true)) ∧
    (∀ (d : Data) (errors : List Bool), errors.length = c.dataBits →
      (t.readBits c (((List.range c.dataBits).map fun j =>
        d.getLsbD (c.dataBits - 1 - j)).zip errors)).rshift.toNat = d.toNat % 2 ^ c.dataBits) ∧
    (∀ (reg : Addr) (data : Data), (t.acceptWrite reg data).afterStop.rerr = false ∧
      (t.acceptWrite reg data).afterStop.tdone = true)

/-- R95, R96, R170, R177 to R183: a start owes exactly the frame of its operation; the request made
is the first one owed; the `finish` of a symbol or bit read takes off exactly that one; nothing
else changes what is owed. What smaller widths than R8's mean is the model's reading, log entry 3. -/
def Obligations.TransactionMakesItsFrame : Prop :=
  ∀ (c : Config) (t : Transactor) (p : TransactorIn) (finish : Bool), c.accepted = true →
    finish = (if t.tst = .rdata then p.dFinish else p.eFinish) →
    (t.tst = .idle → p.startWrite = true → p.startRead = false →
      (t.next c p).remaining c = writeFrame c p.regOut p.wdataOut) ∧
    (t.tst = .idle → p.startRead = true → p.startWrite = false →
      (t.next c p).remaining c = readFrame c p.regOut) ∧
    (t.emitReq = true → ∃ i, decode c (.emit (1#1 ++ t.emitKind)) = .ok i ∧
      (t.remaining c).head? = some i) ∧
    (t.decReq = true → (t.remaining c).head? = some .readBit) ∧
    (t.tst ≠ .idle → t.issued = true → finish = true →
      (t.next c p).remaining c = (t.remaining c).tail ∧ (t.next c p).issued = false) ∧
    (t.tst ≠ .idle → ¬(t.issued = true ∧ finish = true) →
      (t.next c p).remaining c = t.remaining c ∧ (t.next c p).issued = true)

/-- R97: the frame of the source's write scenario, in a build with the widths of R8. -/
def Obligations.SourceScenarioFrame : Prop :=
  ∀ (clk : Nat) (power : Bool),
    writeFrame (Config.source clk power) 0x7A#7 0x55AACA15#32 = .emitStart ::
      (([true, true, true, true, false, true, false] ++ [true] ++
        [false, true, false, true, false, true, false, true,
         true, false, true, false, true, false, true, false,
         true, true, false, false, true, false, true, false,
         false, false, false, true, false, true, false, true]).map bitInstr ++ [.emitStop])

/-! ## Runs -/

/-- R203, R204, R215: counted from reset, the line is driven high for the first attach phase's
milliseconds and low for the second's, and the emitter is ready ever after. -/
def Obligations.AttachTimingFromReset : Prop :=
  ∀ (c : Config) (env : Env) (n : Nat) (t : State), c.accepted = true → env.noReset n →
    Host.Core.run Sys2Proof.core n (State.resetWith c env) = .next t →
    (n * c.msRateHz / c.clkHz < c.attachHighMs → t.emitter.line = .drivingHigh) ∧
    (c.attachHighMs ≤ n * c.msRateHz / c.clkHz →
      n * c.msRateHz / c.clkHz < c.attachHighMs + c.attachLowMs →
      t.emitter.line = .drivingLow) ∧
    (c.attachHighMs + c.attachLowMs ≤ n * c.msRateHz / c.clkHz → t.emitter.ready = true)

/-- R244, R283 H5: as long as the target leaves the line released, a bit read waits in SETUP, the
transactor in RDATA and the dispatcher in WAIT_DONE, without limit, so that no program ends there
(R313). -/
def Obligations.SilentTargetHoldsTheRead : Prop :=
  ∀ (n : Nat) (s t : State), CoreInv s → s.decoder.dst = .setup → s.env.noReset n →
    (∀ k, k < n → (s.env.skip k).inputs.targetLow = false) →
    Host.Core.run Sys2Proof.core n s = .next t →
    t.decoder.dst = .setup ∧ t.transactor.tst = .rdata ∧ t.dispatcher.cst = .waitDone ∧
    t.quiescent = false

/-- R138, R152, R313: TEST taken in cycle c hands `'+'` over in cycle c+3, in which the dispatcher
again awaits a command, and leaves power and the operand and result registers alone. Run from a
quiescent state, with nothing offered after it, the program of that one byte ends in cycle c+4 and in
no other, and its end state is the state it began in but for `cmd`, `tx_data_r`, the tick sources
and the outside world. -/
def Obligations.TestIsAnsweredInThreeCycles : Prop :=
  ∀ s : State, s.runs = true → s.noConflict = true → s.dispatcher.cst = .waitCmd →
    s.rxOk = true → s.inputs.rxData = 0x3F#8 → s.env.noReset 3 →
    (s.env.skip 1).inputs.rxReady = true → (s.env.skip 1).inputs.rxData = 0x3F#8 →
    (s.env.skip 2).inputs.txReady = true →
    (∃ t, Host.Core.run Sys2Proof.core 3 s = .next t ∧ t.dispatcher.txStartR = true ∧
      t.dispatcher.txDataR = s.cfg.ackByte ∧ t.dispatcher.cst = .waitCmd ∧
      t.dispatcher.power = s.dispatcher.power ∧ t.dispatcher.creg = s.dispatcher.creg ∧
      t.dispatcher.cwdata = s.dispatcher.cwdata ∧ t.dispatcher.crdata = s.dispatcher.crdata) ∧
    (s.quiescent = true → s.env.noReset 4 → (s.env.skip 2).inputs.rxReady = false →
      (s.env.skip 3).inputs.rxReady = false →
      ∃ t, s.programEndsAt [0x3F#8] 4 t ∧
        t.dispatcher = { s.dispatcher with cmd := 0x3F#8, txDataR := s.cfg.ackByte } ∧
        t.transactor = s.transactor ∧ t.emitter = s.emitter ∧ t.decoder = s.decoder ∧
        t.cfg = s.cfg ∧ (∀ m u, s.programEndsAt [0x3F#8] m u → m = 4 ∧ u = t))
end

