-- ==== Sys2Proof/Laws/State.lean ====
section
/-! SUPPORT. One lemma per field per update of the state, each true by unfolding once: the pulse
defaults of the four components (spec rules R132, R172, R202, R242), the state after a cycle (R112),
the state after reset (R35, R300) and the environment. -/

namespace Sys2Proof.Machine

@[simp] theorem BitEmitter.quiet_est (e : BitEmitter) : e.quiet.est = e.est := rfl

@[simp] theorem BitEmitter.quiet_msCnt (e : BitEmitter) : e.quiet.msCnt = e.msCnt := rfl

@[simp] theorem BitEmitter.quiet_bcnt (e : BitEmitter) : e.quiet.bcnt = e.bcnt := rfl

@[simp] theorem BitEmitter.quiet_efin (e : BitEmitter) : e.quiet.efin = false := rfl

@[simp] theorem BitDecoder.quiet_dst (b : BitDecoder) : b.quiet.dst = b.dst := rfl

@[simp] theorem BitDecoder.quiet_dcnt (b : BitDecoder) : b.quiet.dcnt = b.dcnt := rfl

@[simp] theorem BitDecoder.quiet_mcnt (b : BitDecoder) : b.quiet.mcnt = b.mcnt := rfl

@[simp] theorem BitDecoder.quiet_dbit (b : BitDecoder) : b.quiet.dbit = b.dbit := rfl

@[simp] theorem BitDecoder.quiet_derr (b : BitDecoder) : b.quiet.derr = b.derr := rfl

@[simp] theorem BitDecoder.quiet_dfin (b : BitDecoder) : b.quiet.dfin = false := rfl

@[simp] theorem Transactor.quiet_tst (t : Transactor) : t.quiet.tst = t.tst := rfl

@[simp] theorem Transactor.quiet_issued (t : Transactor) : t.quiet.issued = t.issued := rfl

@[simp] theorem Transactor.quiet_idx (t : Transactor) : t.quiet.idx = t.idx := rfl

@[simp] theorem Transactor.quiet_op (t : Transactor) : t.quiet.op = t.op := rfl

@[simp] theorem Transactor.quiet_treg (t : Transactor) : t.quiet.treg = t.treg := rfl

@[simp] theorem Transactor.quiet_twdata (t : Transactor) : t.quiet.twdata = t.twdata := rfl

@[simp] theorem Transactor.quiet_rshift (t : Transactor) : t.quiet.rshift = t.rshift := rfl

@[simp] theorem Transactor.quiet_rerr (t : Transactor) : t.quiet.rerr = t.rerr := rfl

@[simp] theorem Transactor.quiet_tdone (t : Transactor) : t.quiet.tdone = false := rfl

@[simp] theorem Dispatcher.quiet_cst (d : Dispatcher) : d.quiet.cst = d.cst := rfl

@[simp] theorem Dispatcher.quiet_cmd (d : Dispatcher) : d.quiet.cmd = d.cmd := rfl

@[simp] theorem Dispatcher.quiet_creg (d : Dispatcher) : d.quiet.creg = d.creg := rfl

@[simp] theorem Dispatcher.quiet_cwdata (d : Dispatcher) : d.quiet.cwdata = d.cwdata := rfl

@[simp] theorem Dispatcher.quiet_crdata (d : Dispatcher) : d.quiet.crdata = d.crdata := rfl

@[simp] theorem Dispatcher.quiet_cidx (d : Dispatcher) : d.quiet.cidx = d.cidx := rfl

@[simp] theorem Dispatcher.quiet_power (d : Dispatcher) : d.quiet.power = d.power := rfl

@[simp] theorem Dispatcher.quiet_rxAckR (d : Dispatcher) : d.quiet.rxAckR = false := rfl

@[simp] theorem Dispatcher.quiet_txStartR (d : Dispatcher) : d.quiet.txStartR = false := rfl

@[simp] theorem Dispatcher.quiet_txDataR (d : Dispatcher) : d.quiet.txDataR = d.txDataR := rfl

@[simp] theorem Dispatcher.quiet_swR (d : Dispatcher) : d.quiet.swR = false := rfl

@[simp] theorem Dispatcher.quiet_srR (d : Dispatcher) : d.quiet.srR = false := rfl

section

variable (s : State) (d : Dispatcher) (t : Transactor) (e : BitEmitter) (b : BitDecoder)

@[simp] theorem State.advanced_cfg : (s.advanced d t e b).cfg = s.cfg := rfl

@[simp] theorem State.advanced_ems :
    (s.advanced d t e b).ems = s.ems.next s.cfg.msRateHz s.cfg.clkHz := rfl

@[simp] theorem State.advanced_ebt :
    (s.advanced d t e b).ebt = s.ebt.next s.cfg.bitRateHz s.cfg.clkHz := rfl

@[simp] theorem State.advanced_dbt :
    (s.advanced d t e b).dbt = s.dbt.next s.cfg.bitRateHz s.cfg.clkHz := rfl

@[simp] theorem State.advanced_emitter : (s.advanced d t e b).emitter = e := rfl

@[simp] theorem State.advanced_decoder : (s.advanced d t e b).decoder = b := rfl

@[simp] theorem State.advanced_transactor : (s.advanced d t e b).transactor = t := rfl

@[simp] theorem State.advanced_dispatcher : (s.advanced d t e b).dispatcher = d := rfl

@[simp] theorem State.advanced_env : (s.advanced d t e b).env = s.envNext := rfl

end

section

variable (c : Config) (v : Env)

@[simp] theorem State.resetWith_cfg : (State.resetWith c v).cfg = c := rfl

@[simp] theorem State.resetWith_ems : (State.resetWith c v).ems = ⟨0⟩ := rfl

@[simp] theorem State.resetWith_ebt : (State.resetWith c v).ebt = ⟨0⟩ := rfl

@[simp] theorem State.resetWith_dbt : (State.resetWith c v).dbt = ⟨0⟩ := rfl

@[simp] theorem State.resetWith_emitter : (State.resetWith c v).emitter = BitEmitter.reset c := rfl

@[simp] theorem State.resetWith_decoder : (State.resetWith c v).decoder = BitDecoder.reset := rfl

@[simp] theorem State.resetWith_transactor : (State.resetWith c v).transactor = Transactor.reset := rfl

@[simp] theorem State.resetWith_dispatcher : (State.resetWith c v).dispatcher = Dispatcher.reset c := rfl

@[simp] theorem State.resetWith_env : (State.resetWith c v).env = v := rfl

end

/-- The scheduled inputs are used in order. -/
@[simp] theorem Env.inputs_cons (i : Inputs) (is : List Inputs) (n : Nat) (h : Option Byte) :
    (Env.mk (i :: is) n h).inputs = i := rfl

@[simp] theorem Env.next_pending (v : Env) (a : Bool) : (v.next a).pending = v.pending.tail := rfl

@[simp] theorem Env.next_draws (v : Env) (a : Bool) : (v.next a).draws = v.draws + 1 := rfl

/-- Which of the coming inputs can depend on the acknowledgement: only what ByteLink offers. -/
theorem Env.next_inputs_of_ack (v : Env) (a a' : Bool) :
    (v.next a).inputs.rst = (v.next a').inputs.rst ∧
      (v.next a).inputs.txReady = (v.next a').inputs.txReady ∧
      (v.next a).inputs.targetLow = (v.next a').inputs.targetLow := by
  cases h : v.pending.tail <;> simp [Env.inputs, Env.next, h]

end Sys2Proof.Machine
end

