-- ==== Sys2Proof/Laws/Ops.lean ====
section
/-! SUPPORT. For each shared operation, what it can do, said once: a tick source's step (spec rule
R118), the lockstep cycle (R112, R175), and the ways a step can end. -/

namespace Sys2Proof.Machine

/-- A tick source wraps exactly when it ticks, and stays below the clock rate (R118, R125). -/
theorem TickSource.next_acc (rate clk : Nat) (t : TickSource) (hr : rate ≤ clk)
    (h : t.acc < clk) :
    (t.next rate clk).acc < clk ∧
      (t.tick rate clk = true → (t.next rate clk).acc + clk = t.acc + rate) ∧
      (t.tick rate clk = false → (t.next rate clk).acc = t.acc + rate) := by
  unfold TickSource.next
  cases hk : t.tick rate clk <;> simp only [TickSource.tick, decide_eq_true_eq,
    decide_eq_false_iff_not] at hk <;> simp <;> omega

/-- Free draws keep ByteLink's contract: only a scheduled cycle can break it (R304). -/
theorem State.linkKept_of_free (s : State) (h : s.env.pending = []) : s.linkKept = true := by
  unfold State.linkKept State.inputs Env.inputs
  cases hh : s.env.held <;> simp [h]

/-- A cycle answers a next state exactly when there is no conflicting start, and then this one. -/
theorem State.lockstep_eq_next_iff (s t : State) (p : TransactorIn) (d : Dispatcher)
    (e : BitEmitter) (b : BitDecoder) :
    s.lockstep p d e b = .next t ↔
      s.transactor.conflict p = false ∧ t = s.advanced d (s.transactor.next s.cfg p) e b := by
  unfold State.lockstep
  cases s.transactor.conflict p <;> simp [eq_comm]

/-- A cycle is never refused. -/
theorem State.lockstep_ne_refused (s : State) (p : TransactorIn) (d : Dispatcher)
    (e : BitEmitter) (b : BitDecoder) (r : Refusal) : s.lockstep p d e b ≠ .refused r := by
  unfold State.lockstep
  split <;> simp

/-- Every instruction's meaning is one lockstep cycle, with its own component's next registers (or
the transactor's inputs) given by the instruction (R110, R112). -/
theorem exec_eq_lockstep (i : Instr) (s : State) :
    ∃ p d e b, exec i s = s.lockstep p d e b := by
  cases i <;> exact ⟨_, _, _, _, rfl⟩

/-- Outside IDLE a request is ignored (R213). -/
theorem State.emitterOn_of_ne (s : State) (a : BitEmitter) (h : s.emitter.est ≠ .idle) :
    s.emitterOn a = s.emitterPhase := if_neg h

/-- In IDLE a request is accepted (R205). -/
theorem State.emitterOn_of_idle (s : State) (a : BitEmitter) (h : s.emitter.est = .idle) :
    s.emitterOn a = a := if_pos h

/-- Outside IDLE a bit-read request is ignored (R248). -/
theorem State.decoderOn_of_ne (s : State) (a : BitDecoder) (h : s.decoder.dst ≠ .idle) :
    s.decoderOn a = s.decoderPhase := if_neg h

/-- In IDLE a bit-read request is accepted (R243). -/
theorem State.decoderOn_of_idle (s : State) (a : BitDecoder) (h : s.decoder.dst = .idle) :
    s.decoderOn a = a := if_pos h

/-- What is in the read register after a bit is shifted in: the bit at the low end, the others one place
up, and nothing beyond `DATA_BITS` (R182). -/
theorem getLsbD_shiftIn (c : Config) (v : Data) (bit : Bool) (k : Nat) (h : c.dataBits ≤ 32) :
    (shiftIn c v bit).getLsbD k =
      (decide (k < c.dataBits) && if k = 0 then bit else v.getLsbD (k - 1)) := by
  unfold shiftIn
  by_cases hk : k < c.dataBits
  · have lt : k < 32 := by omega
    by_cases h0 : k = 0
    · subst h0; simp [hk]
    · simp [hk, lt, h0, -BitVec.getLsbD_eq_getElem]
  · simp [hk]

/-- The read register stays `DATA_BITS` wide (R182). -/
theorem toNat_shiftIn_lt (c : Config) (v : Data) (bit : Bool) :
    (shiftIn c v bit).toNat < 2 ^ c.dataBits := by
  simp only [shiftIn, BitVec.toNat_setWidth]
  exact lt_of_le_of_lt (Nat.mod_le _ _) (Nat.mod_lt _ (Nat.two_pow_pos _))

/-- What an accepted configuration guarantees, as plain arithmetic (R9, R10). -/
theorem Config.accepted_bounds (c : Config) (h : c.accepted = true) :
    (1 ≤ c.msRateHz ∧ c.msRateHz ≤ c.clkHz) ∧ (1 ≤ c.bitRateHz ∧ c.bitRateHz ≤ c.clkHz) ∧
      c.decErrTicks = 12 * c.space0Ticks ∧ c.space1Ticks < c.decOneMaxTicks ∧
      c.decOneMaxTicks < c.space0Ticks ∧
      (1 ≤ c.attachHighMs ∧ c.attachHighMs < 32) ∧ (1 ≤ c.attachLowMs ∧ c.attachLowMs < 32) ∧
      (1 ≤ c.space1Ticks ∧ c.space1Ticks < 32) ∧ (1 ≤ c.space0Ticks ∧ c.space0Ticks < 32) ∧
      (1 ≤ c.markTicks ∧ c.markTicks < 32) ∧ (1 ≤ c.stopTicks ∧ c.stopTicks < 32) ∧
      (1 ≤ c.decErrTicks ∧ c.decErrTicks < 128) ∧
      (1 ≤ c.decMarkTicks ∧ c.decMarkTicks < 8) ∧
      (1 ≤ c.addrBits ∧ c.addrBits ≤ 7) ∧ (1 ≤ c.dataBits ∧ c.dataBits ≤ 32) := by
  simp only [Config.accepted, Config.clockOk, Config.relationsOk, Config.widthsOk, Config.fits,
    Config.holds,
    Bool.and_eq_true, decide_eq_true_eq] at h
  norm_num at h
  omega

end Sys2Proof.Machine
end

