-- ==== Sys2Proof/Laws/Step.lean ====
section
/-! SUPPORT. What the component steps, an instruction's cycle and a machine step can do, each said
once as a case split (spec rules R112, R135, R205, R213, R243, R248, R273). -/

namespace Sys2Proof.Machine

/-- What an accepted request makes of the emitter. -/
def BitEmitter.Accepted (c : Config) (e a : BitEmitter) : Prop :=
  a = e.acceptBit0 c ∨ a = e.acceptBit1 c ∨ a = e.acceptStart c ∨ a = e.acceptStop c

/-- What DISPATCH can make of the dispatcher (R135). -/
def Dispatcher.Dispatched (d x : Dispatcher) : Prop :=
  x = d.dispatchTest ∨ x = d.dispatchPowerOn ∨ x = d.dispatchPowerOff ∨ x = d.dispatchWriteReg ∨
    x = d.dispatchReadReg ∨ x = d.dispatchIgnored

/-- A request is accepted in IDLE, else the emitter takes its phase's step (R205, R213). -/
theorem State.emitterOn_cases (s : State) (a : BitEmitter) :
    s.emitterOn a = s.emitterPhase ∨ (s.emitter.est = .idle ∧ s.emitterOn a = a) := by
  by_cases h : s.emitter.est = .idle
  · exact .inr ⟨h, s.emitterOn_of_idle a h⟩
  · exact .inl (s.emitterOn_of_ne a h)

/-- The emitter's step: its phase's, or in IDLE an accepted request's. -/
theorem State.emitterNext_cases (s : State) :
    s.emitterNext = s.emitterPhase ∨
      (s.emitter.est = .idle ∧ s.emitter.Accepted s.cfg s.emitterNext) := by
  have on (a : BitEmitter) (ha : s.emitter.Accepted s.cfg a) :
      s.emitterOn a = s.emitterPhase ∨
        (s.emitter.est = .idle ∧ s.emitter.Accepted s.cfg (s.emitterOn a)) :=
    (s.emitterOn_cases a).imp_right fun ⟨h, e⟩ => ⟨h, by rwa [e]⟩
  unfold State.emitterNext
  split_ifs
  · exact on _ (.inl rfl)
  · exact on _ (.inr (.inl rfl))
  · exact on _ (.inr (.inr (.inl rfl)))
  · exact on _ (.inr (.inr (.inr rfl)))
  · exact .inl rfl

/-- A request is accepted in IDLE, else the decoder takes its state's step (R243, R248). -/
theorem State.decoderOn_cases (s : State) (a : BitDecoder) :
    s.decoderOn a = s.decoderPhase ∨ (s.decoder.dst = .idle ∧ s.decoderOn a = a) := by
  by_cases h : s.decoder.dst = .idle
  · exact .inr ⟨h, s.decoderOn_of_idle a h⟩
  · exact .inl (s.decoderOn_of_ne a h)

/-- The decoder's step: its state's, or in IDLE an accepted request's. -/
theorem State.decoderNext_cases (s : State) :
    s.decoderNext = s.decoderPhase ∨
      (s.decoder.dst = .idle ∧ s.decoderNext = s.decoder.acceptRead s.swioIn) := by
  unfold State.decoderNext
  split_ifs
  · exact s.decoderOn_cases _
  · exact .inl rfl

/-- Every command byte dispatches to one of the six effects (R135). -/
theorem Dispatcher.dispatchByCode_cases (d : Dispatcher) (code : Byte) :
    d.Dispatched (d.dispatchByCode code) := by
  unfold Dispatcher.dispatchByCode Dispatcher.Dispatched
  split_ifs <;> simp

/-- What an instruction's cycle does to each component: the dispatcher is on some command's path (the
greeting's is the path in INIT), the transactor takes its step with the components' own pulses, and
emitter and decoder take their own step or meet the request. -/
theorem exec_next_cases {i : Instr} {s t : State} (h : exec i s = .next t) :
    t.cfg = s.cfg ∧
      ((∃ code reg data x, s.dispatcher.Dispatched x ∧
          t.dispatcher = s.dispatcherOn code reg data x) ∨
        (s.dispatcher.cst = .init ∧ t.dispatcher = s.dispatcher.greet s.cfg s.dispatcherIn)) ∧
      (∃ p : TransactorIn, t.transactor = s.transactor.next s.cfg p ∧ p.eFinish = s.emitter.efin ∧
        p.dFinish = s.decoder.dfin ∧ p.dBit = s.decoder.dbit ∧ p.dError = s.decoder.derr) ∧
      (t.emitter = s.emitterNext ∨
        ∃ a, s.emitter.Accepted s.cfg a ∧ t.emitter = s.emitterOn a) ∧
      (t.decoder = s.decoderNext ∨ t.decoder = s.decoderOn (s.decoder.acceptRead s.swioIn)) := by
  have own : ∃ code reg data x, s.dispatcher.Dispatched x ∧
      s.dispatcherNext = s.dispatcherOn code reg data x :=
    ⟨_, _, _, _, s.dispatcher.dispatchByCode_cases _, rfl⟩
  cases i <;>
    simp only [exec, execTest, execPowerOn, execPowerOff, execWriteReg, execReadReg, execIgnored,
      execGreeting, execStartWrite, execStartRead, execEmitBit0, execEmitBit1, execEmitStart,
      execEmitStop, execReadBit, State.hostCycle, State.emitterCycle,
      State.lockstep_eq_next_iff] at h <;>
    obtain ⟨-, rfl⟩ := h <;>
    refine ⟨rfl, ?_, ⟨_, rfl, rfl, rfl, rfl, rfl⟩, ?_, ?_⟩
  all_goals first
    | exact .inl own
    | exact .inl rfl
    | exact .inr rfl
    | exact .inr ⟨_, .inl rfl, rfl⟩
    | exact .inr ⟨_, .inr (.inl rfl), rfl⟩
    | exact .inr ⟨_, .inr (.inr (.inl rfl)), rfl⟩
    | exact .inr ⟨_, .inr (.inr (.inr rfl)), rfl⟩
    | exact .inl ⟨_, _, _, _, .inl rfl, rfl⟩
    | exact .inl ⟨_, _, _, _, .inr (.inl rfl), rfl⟩
    | exact .inl ⟨_, _, _, _, .inr (.inr (.inl rfl)), rfl⟩
    | exact .inl ⟨_, _, _, _, .inr (.inr (.inr (.inl rfl))), rfl⟩
    | exact .inl ⟨_, _, _, _, .inr (.inr (.inr (.inr (.inl rfl)))), rfl⟩
    | exact .inl ⟨_, _, _, _, .inr (.inr (.inr (.inr (.inr rfl)))), rfl⟩
    | skip
  by_cases hc : s.dispatcher.cst = .init
  · exact .inr ⟨hc, by simp [hc]⟩
  · exact .inl (by simpa [hc] using own)

/-- How a step can answer a next state: a reset, the cycle of the instruction it fetched, or the
plain cycle (R112, R273). -/
theorem step_next_cases {s t : State} (h : step s = .next t) :
    s.cfg.accepted = true ∧
      ((s.inputs.rst = true ∧ t = s.resetNow) ∨
        (s.inputs.rst = false ∧ s.linkKept = true ∧
          ((∃ i, s.fetch = some i ∧ exec i s = .next t) ∨
            (s.fetch = none ∧ s.cycle = .next t)))) := by
  unfold step at h
  cases ha : s.cfg.accepted <;> cases hr : s.inputs.rst <;> cases hl : s.linkKept <;>
    simp only [ha, hr, hl] at h <;> simp at h
  · cases hf : s.fetch with
    | none => rw [hf] at h; exact ⟨rfl, .inr ⟨rfl, rfl, .inr ⟨rfl, h⟩⟩⟩
    | some i => rw [hf] at h; exact ⟨rfl, .inr ⟨rfl, rfl, .inl ⟨i, rfl, h⟩⟩⟩
  · exact ⟨rfl, .inl ⟨rfl, h.symm⟩⟩
  · exact ⟨rfl, .inl ⟨rfl, h.symm⟩⟩

/-- A run takes its first step, and goes on from there. -/
theorem core_run_succ_of_next {s t : State} (h : step s = .next t) (n : Nat) :
    Host.Core.run Sys2Proof.core (n + 1) s = Host.Core.run Sys2Proof.core n t := by
  have run (M : Host.Core) (s t : M.State) (h : M.step s = .next t) :
      M.run (n + 1) s = M.run n t := by simp [Host.Core.run, h]
  exact run Sys2Proof.core s t h

/-- A run of at least one step that answers a next state has taken its first step. -/
theorem core_run_succ_cases {s t : State} {n : Nat}
    (h : Host.Core.run Sys2Proof.core (n + 1) s = .next t) :
    ∃ s', step s = .next s' ∧ Host.Core.run Sys2Proof.core n s' = .next t := by
  have run (M : Host.Core) (s t : M.State) (h : M.run (n + 1) s = .next t) :
      ∃ s', M.step s = .next s' ∧ M.run n s' = .next t := by
    cases hs : M.step s <;> simp [Host.Core.run, hs] at h
    exact ⟨_, rfl, h⟩
  exact run Sys2Proof.core s t h

/-- A run of `n` steps goes on with one more. -/
theorem core_run_snoc {s t u : State} {n : Nat} (h : Host.Core.run Sys2Proof.core n s = .next t)
    (ht : step t = .next u) : Host.Core.run Sys2Proof.core (n + 1) s = .next u := by
  induction n generalizing s with
  | zero => cases h; exact core_run_succ_of_next ht 0
  | succ n ih =>
    obtain ⟨s', hs, hr⟩ := core_run_succ_cases h
    rw [core_run_succ_of_next hs]
    exact ih hr

end Sys2Proof.Machine
end

