-- ==== Sys2Proof/Laws/HostProgram.lean ====
section
/-! SUPPORT. What the run of a host program can do, said once: its next cycle, that its states are those
of the machine's own run, and that a program has at most one end (spec rule R313). -/

namespace Sys2Proof.Machine

@[simp] theorem HostRun.start_state (s : State) : (HostRun.start s).state = s := rfl

@[simp] theorem HostRun.start_taken (s : State) : (HostRun.start s).taken = [] := rfl

@[simp] theorem HostRun.start_sent (s : State) : (HostRun.start s).sent = [] := rfl

@[simp] theorem HostRun.after_zero (r : HostRun) : r.after 0 = some r := rfl

/-- A run has a next cycle exactly where the machine steps without a reset, and then this one. -/
theorem HostRun.next_eq_some_iff (r q : HostRun) :
    r.next = some q ↔ r.state.inputs.rst = false ∧ ∃ t, step r.state = .next t ∧
      q = { state := t, taken := r.taken ++ r.state.byteTaken.toList,
            sent := r.sent ++ r.state.byteSent.toList } := by
  unfold HostRun.next
  cases r.state.inputs.rst <;> cases step r.state <;> simp [eq_comm]

/-- One more cycle of a run. -/
theorem HostRun.after_succ_of_next {r p q : HostRun} {n : Nat} (h : r.after n = some p)
    (hn : p.next = some q) : r.after (n + 1) = some q := by
  simp [HostRun.after, h, hn]

/-- The states of a host program's run are those of the machine's run. -/
theorem HostRun.after_core_run {s : State} {n : Nat} {r : HostRun}
    (h : (HostRun.start s).after n = some r) :
    Host.Core.run Sys2Proof.core n s = .next r.state := by
  induction n generalizing r with
  | zero => cases h; rfl
  | succ n ih =>
    simp only [HostRun.after, Option.bind_eq_some_iff] at h
    obtain ⟨p, hp, hn⟩ := h
    obtain ⟨-, t, ht, rfl⟩ := (HostRun.next_eq_some_iff p r).1 hn
    exact core_run_snoc (ih hp) ht

/-- A program ends in one cycle at most, with one end state (R313). -/
theorem State.programEndsAt_unique {s t u : State} {program : List Byte} {m n : Nat}
    (hm : s.programEndsAt program m t) (hn : s.programEndsAt program n u) : m = n ∧ t = u := by
  obtain ⟨m1, m2, m3⟩ := hm
  obtain ⟨n1, n2, n3⟩ := hn
  obtain lt | rfl | lt := lt_trichotomy m n
  · exact absurd (n2 m lt) (by simp [m1])
  · exact ⟨rfl, Option.some.inj (m3.symm.trans n3)⟩
  · exact absurd (m2 n lt) (by simp [n1])

end Sys2Proof.Machine
end

