-- ==== Sys2Proof/Laws/Operands.lean ====
section
/-! SUPPORT. What the operand helpers do: byte lanes, the register byte, and the bytes of a word
(spec rules R63, R68, R69, R85, R86, R125). -/

namespace Sys2Proof

/-- The four values of a lane number. -/
theorem lane_cases (i : BitVec 2) : i = 0 ∨ i = 1 ∨ i = 2 ∨ i = 3 := by
  revert i; decide

@[simp] theorem byteLane_insertLane (v : Data) (i : BitVec 2) (b : Byte) :
    byteLane (insertLane v i b) i = b := by
  apply BitVec.eq_of_getLsbD_eq
  intro k hk
  rcases lane_cases i with rfl | rfl | rfl | rfl <;>
    (interval_cases k <;> simp [byteLane, insertLane])

/-- Writing one lane leaves the others alone. -/
theorem byteLane_insertLane_of_ne (v : Data) (i j : BitVec 2) (b : Byte) (h : i ≠ j) :
    byteLane (insertLane v i b) j = byteLane v j := by
  apply BitVec.eq_of_getLsbD_eq
  intro k hk
  rcases lane_cases i with rfl | rfl | rfl | rfl <;>
    rcases lane_cases j with rfl | rfl | rfl | rfl <;>
    first
      | exact absurd rfl h
      | (interval_cases k <;> simp [byteLane, insertLane])

/-- A word is its four bytes in arrival order. -/
@[simp] theorem dataOfBytes_byteLane (v : Data) :
    dataOfBytes (byteLane v 0) (byteLane v 1) (byteLane v 2) (byteLane v 3) = v := by
  apply BitVec.eq_of_getLsbD_eq
  intro k hk
  interval_cases k <;> simp [byteLane, dataOfBytes]

@[simp] theorem bytesOfData_dataOfBytes (b0 b1 b2 b3 : Byte) :
    bytesOfData (dataOfBytes b0 b1 b2 b3) = [b0, b1, b2, b3] := by
  simp only [bytesOfData, List.cons.injEq, and_true]
  refine ⟨?_, ?_, ?_, ?_⟩ <;>
    (apply BitVec.eq_of_getLsbD_eq
     intro k hk
     interval_cases k <;> simp [byteLane, dataOfBytes])

/-- An address of `ADDR_BITS` bits is read back from its byte. -/
theorem regOfByte_byteOfReg (cfg : Config) (r : Addr) (h : r.toNat < 2 ^ cfg.addrBits) :
    regOfByte cfg (byteOfReg r) = r := by
  apply BitVec.eq_of_toNat_eq
  have hr := r.isLt
  simp only [regOfByte, byteOfReg, BitVec.toNat_setWidth]
  rw [Nat.mod_eq_of_lt (a := r.toNat) (by omega), Nat.mod_eq_of_lt h, Nat.mod_eq_of_lt hr]

/-- A register operand is an address of `ADDR_BITS` bits. -/
theorem toNat_regOfByte_lt (cfg : Config) (b : Byte) :
    (regOfByte cfg b).toNat < 2 ^ cfg.addrBits := by
  simp only [regOfByte, BitVec.toNat_setWidth]
  exact lt_of_le_of_lt (Nat.mod_le _ _) (Nat.mod_lt _ (Nat.two_pow_pos _))

/-- The register operand is the value of the byte's low bits, and is an address of that width. -/
theorem toNat_regOfByte (cfg : Config) (b : Byte) (h : cfg.addrBits ≤ 7) :
    (regOfByte cfg b).toNat = b.toNat % 2 ^ cfg.addrBits := by
  have le : 2 ^ cfg.addrBits ≤ 2 ^ 7 := Nat.pow_le_pow_right (by omega) h
  have lt := Nat.mod_lt b.toNat (Nat.two_pow_pos cfg.addrBits)
  simp only [regOfByte, BitVec.toNat_setWidth]
  exact Nat.mod_eq_of_lt (by omega)

@[simp] theorem regOfByte_source (clk : Nat) (power : Bool) (b : Byte) :
    regOfByte (Config.source clk power) b = b.setWidth 7 := by
  simp [regOfByte, Config.source]

namespace Machine

/-- The frame on the host port decodes to the command its first byte names, with the operands the
port shows. -/
theorem decode_frameBytes (s : State) :
    decode? s.cfg (.host s.frameBytes) = some
      (if s.commandByte = codeTest then .test
       else if s.commandByte = codePowerOn then .powerOn
       else if s.commandByte = codePowerOff then .powerOff
       else if s.commandByte = codeWriteReg then
        .writeReg (regOfByte s.cfg s.registerByte) s.frameData
       else if s.commandByte = codeReadReg then .readReg (regOfByte s.cfg s.registerByte)
       else .ignored s.commandByte) := by
  simp only [decode?, decode, decodeHost, State.frameBytes, decodeFrame, bytesOfData,
    dataOfBytes_byteLane]
  split_ifs <;> simp

end Machine

end Sys2Proof
end

