-- ==== Sys2Proof/Laws/PerInstr.lean ====
section
/-! SUPPORT. A statement about every instruction as syntax: its encoding stands on the port of its
opcode-table row, and a host frame has the length of its command (spec rules R80, R82). -/

namespace Sys2Proof

/-- The length in bytes of a host frame (R80); 0 for what is no host frame. -/
def Instr.frameLength : Instr → Nat
  | .test => 1
  | .powerOn => 1
  | .powerOff => 1
  | .writeReg _ _ => 6
  | .readReg _ => 2
  | .ignored _ => 1
  | .greeting => 0
  | .startWrite _ _ => 0
  | .startRead _ => 0
  | .emitBit0 => 0
  | .emitBit1 => 0
  | .emitStart => 0
  | .emitStop => 0
  | .readBit => 0

/-- The host bytes of a port's word. -/
def PortWord.hostBytes : PortWord → List Byte
  | .host bytes => bytes
  | .output _ => []
  | .start _ _ _ => []
  | .emit _ => []
  | .dec _ => []

namespace Laws.EncodeShape

/-- In every build the word of an instruction is on its row's port, with its frame's length. -/
def Statement (i : Instr) : Prop :=
  ∀ c : Config, (encode c i).port = i.port ∧ (encode c i).hostBytes.length = i.frameLength

theorem test : Statement .test := fun _ => ⟨rfl, rfl⟩

theorem powerOn : Statement .powerOn := fun _ => ⟨rfl, rfl⟩

theorem powerOff : Statement .powerOff := fun _ => ⟨rfl, rfl⟩

theorem writeReg (reg : Addr) (data : Data) : Statement (.writeReg reg data) :=
  fun _ => ⟨rfl, rfl⟩

theorem readReg (reg : Addr) : Statement (.readReg reg) := fun _ => ⟨rfl, rfl⟩

theorem ignored (byte : Byte) : Statement (.ignored byte) := fun _ => ⟨rfl, rfl⟩

theorem greeting : Statement .greeting := fun _ => ⟨rfl, rfl⟩

theorem startWrite (reg : Addr) (data : Data) : Statement (.startWrite reg data) :=
  fun _ => ⟨rfl, rfl⟩

theorem startRead (reg : Addr) : Statement (.startRead reg) := fun _ => ⟨rfl, rfl⟩

theorem emitBit0 : Statement .emitBit0 := fun _ => ⟨rfl, rfl⟩

theorem emitBit1 : Statement .emitBit1 := fun _ => ⟨rfl, rfl⟩

theorem emitStart : Statement .emitStart := fun _ => ⟨rfl, rfl⟩

theorem emitStop : Statement .emitStop := fun _ => ⟨rfl, rfl⟩

theorem readBit : Statement .readBit := fun _ => ⟨rfl, rfl⟩

end Laws.EncodeShape

end Sys2Proof
end

