-- ==== Sys2Proof/Laws/Safety.lean ====
section
/-! SUPPORT. The parts of the core's invariant that speak of one component alone, and what a step of
the emitter or the decoder does to them (spec rules R122, R125, R202 to R214, R242 to R248). -/

namespace Sys2Proof.Machine

/-- The emitter's counters hold values of their phases (R22, R125). -/
def BitEmitter.CountsOk (c : Config) (e : BitEmitter) : Prop :=
  (e.est = .attachHigh → countsDown e.msCnt.toNat c.attachHighMs) ∧
    (e.est = .attachLow → countsDown e.msCnt.toNat c.attachLowMs) ∧
    (e.est = .space → countsDown e.bcnt.toNat c.space0Ticks) ∧
    (e.est = .mark → countsDown e.bcnt.toNat c.markTicks) ∧
    (e.est = .stop → countsDown e.bcnt.toNat c.stopTicks)

/-- The decoder's counters hold values of their states (R24, R125). -/
def BitDecoder.CountsOk (c : Config) (b : BitDecoder) : Prop :=
  b.dcnt.toNat ≤ c.decErrTicks ∧ (b.dst = .capture → b.dcnt.toNat < c.decErrTicks) ∧
    (b.dst = .setup → b.dcnt = 0) ∧ (b.dst = .waitMark → countsDown b.mcnt.toNat c.decMarkTicks)

theorem CoreInv.emitterCounts {s : State} (h : CoreInv s) : s.emitter.CountsOk s.cfg :=
  ⟨h.attachHighCount, h.attachLowCount, h.spaceCount, h.markCount, h.stopCount⟩

theorem CoreInv.decoderCounts {s : State} (h : CoreInv s) : s.decoder.CountsOk s.cfg :=
  ⟨h.lowCount, h.captureCount, h.setupCount, h.waitMarkCount⟩

/-- A counter loaded with a duration that fits holds that duration. -/
theorem toNat_ofNat_of_lt {w n : Nat} (h : n < 2 ^ w) : (BitVec.ofNat w n).toNat = n := by
  rw [BitVec.toNat_ofNat, Nat.mod_eq_of_lt h]

/-- A counter above 1 goes down by one, and stays within its bound (R125). -/
theorem countsDown_pred {w n : Nat} {v : BitVec (w + 1)} (h : countsDown v.toNat n) (h1 : v ≠ 1) :
    countsDown (v - 1).toNat n := by
  have one : (1 : BitVec (w + 1)).toNat = 1 := by simp
  have ne : v.toNat ≠ 1 := fun e => h1 (BitVec.eq_of_toNat_eq (e.trans one.symm))
  have le : (1 : BitVec (w + 1)).toNat ≤ v.toNat := by rw [one]; exact h.1
  have e : (v - 1).toNat = v.toNat - 1 := by rw [BitVec.toNat_sub_of_le le, one]
  simp only [countsDown, e] at *
  omega

/-- The emitter's own step: it stays ready; in IDLE it stays there; a symbol goes on, keeping STOP
apart from SPACE and MARK, or ends with `efin`; an attach phase gives no symbol and no `efin`. -/
theorem BitEmitter.phase_cases (c : Config) (m k : Bool) (e : BitEmitter) :
    (e.ready = true → (e.phase c m k).ready = true) ∧
      (e.est = .idle → (e.phase c m k).est = .idle ∧ (e.phase c m k).efin = false) ∧
      (e.inSymbol = true →
        ((e.phase c m k).inSymbol = true ∧ (e.phase c m k).efin = false ∧
          ((e.phase c m k).est = .stop ↔ e.est = .stop)) ∨
        ((e.phase c m k).est = .idle ∧ (e.phase c m k).efin = true)) ∧
      (e.ready = false →
        (e.phase c m k).inSymbol = false ∧ (e.phase c m k).efin = false) := by
  cases he : e.est <;>
    simp [BitEmitter.phase, he, BitEmitter.ready, BitEmitter.inSymbol, BitEmitter.attachHigh,
      BitEmitter.attachLow, BitEmitter.space, BitEmitter.mark, BitEmitter.stop] <;>
    split_ifs <;> simp [he]

/-- The emitter's own step keeps its counters within their phases. -/
theorem BitEmitter.phase_countsOk {c : Config} (hc : c.accepted = true) {e : BitEmitter}
    (h : e.CountsOk c) (m k : Bool) : (e.phase c m k).CountsOk c := by
  have b := Config.accepted_bounds c hc
  have low : (BitVec.ofNat 5 c.attachLowMs).toNat = c.attachLowMs := toNat_ofNat_of_lt b.2.2.2.2.2.2.1.2
  have mark : (BitVec.ofNat 5 c.markTicks).toNat = c.markTicks := toNat_ofNat_of_lt b.2.2.2.2.2.2.2.2.2.1.2
  obtain ⟨h1, h2, h3, h4, h5⟩ := h
  unfold BitEmitter.phase
  cases he : e.est <;>
    simp only [BitEmitter.attachHigh, BitEmitter.attachLow, BitEmitter.space, BitEmitter.mark,
      BitEmitter.stop] <;>
    (try split_ifs with t one) <;>
    simp only [BitEmitter.CountsOk, BitEmitter.quiet_est, BitEmitter.quiet_msCnt,
      BitEmitter.quiet_bcnt, he, reduceCtorEq, false_implies, true_implies, and_true, true_and,
      low, mark]
  · exact ⟨b.2.2.2.2.2.2.1.1, le_rfl⟩
  · exact countsDown_pred (h1 he) one
  · exact h1 he
  · exact countsDown_pred (h2 he) one
  · exact h2 he
  · exact ⟨b.2.2.2.2.2.2.2.2.2.1.1, le_rfl⟩
  · exact countsDown_pred (h3 he) one
  · exact h3 he
  · exact countsDown_pred (h4 he) one
  · exact h4 he
  · exact countsDown_pred (h5 he) one
  · exact h5 he

/-- An accepted request starts a symbol with a duration that fits, and gives no `efin` (R205). -/
theorem BitEmitter.Accepted.facts {c : Config} (hc : c.accepted = true) {e a : BitEmitter}
    (h : e.Accepted c a) : a.inSymbol = true ∧ a.efin = false ∧ a.CountsOk c := by
  have b := Config.accepted_bounds c hc
  have s0 : (BitVec.ofNat 5 c.space0Ticks).toNat = c.space0Ticks := toNat_ofNat_of_lt (by omega)
  have s1 : (BitVec.ofNat 5 c.space1Ticks).toNat = c.space1Ticks := toNat_ofNat_of_lt (by omega)
  have st : (BitVec.ofNat 5 c.stopTicks).toNat = c.stopTicks := toNat_ofNat_of_lt (by omega)
  rcases h with rfl | rfl | rfl | rfl <;>
    simp only [BitEmitter.acceptBit0, BitEmitter.acceptBit1, BitEmitter.acceptStart,
      BitEmitter.acceptStop, BitEmitter.inSymbol, BitEmitter.quiet_efin, BitEmitter.CountsOk,
      reduceCtorEq, false_implies, true_implies, and_true, true_and, s0, s1, st, countsDown] <;>
    omega

/-- The decoder's own step: in IDLE it stays there; a bit read goes on, or ends with `dfin`. -/
theorem BitDecoder.phase_cases (c : Config) (w k : Bool) (b : BitDecoder) :
    (b.dst = .idle → (b.phase c w k).dst = .idle ∧ (b.phase c w k).dfin = false) ∧
      (b.dst ≠ .idle →
        ((b.phase c w k).dst ≠ .idle ∧ (b.phase c w k).dfin = false) ∨
        ((b.phase c w k).dst = .idle ∧ (b.phase c w k).dfin = true)) := by
  cases hb : b.dst <;>
    simp [BitDecoder.phase, hb, BitDecoder.setup, BitDecoder.capture, BitDecoder.classify,
      BitDecoder.waitMark] <;>
    split_ifs <;> simp [hb]

/-- The decoder's own step keeps its counters within their states. -/
theorem BitDecoder.phase_countsOk {c : Config} (hc : c.accepted = true) {b : BitDecoder}
    (h : b.CountsOk c) (w k : Bool) : (b.phase c w k).CountsOk c := by
  have bd := Config.accepted_bounds c hc
  have mark : (BitVec.ofNat 3 c.decMarkTicks).toNat = c.decMarkTicks := toNat_ofNat_of_lt (by omega)
  have err : (BitVec.ofNat 7 c.decErrTicks).toNat = c.decErrTicks := toNat_ofNat_of_lt (by omega)
  obtain ⟨h1, h2, h3, h4⟩ := h
  unfold BitDecoder.phase
  cases hb : b.dst <;> simp only
  case idle => simp [BitDecoder.CountsOk, hb, h1]
  case setup =>
    have z := h3 hb
    unfold BitDecoder.setup
    split_ifs <;> simp [BitDecoder.CountsOk, hb, z]
    omega
  case capture =>
    have lt := h2 hb
    have up : (b.dcnt + 1).toNat = b.dcnt.toNat + 1 := by bv_omega
    unfold BitDecoder.capture
    split_ifs with t1 t2 t3
    · simp [BitDecoder.CountsOk, h1]
    · simp only [BitDecoder.CountsOk, up, reduceCtorEq, false_implies, and_true]
      omega
    · have ne : b.dcnt.toNat + 1 ≠ c.decErrTicks := fun e =>
        t3 (BitVec.eq_of_toNat_eq (by rw [up, err, e]))
      simp only [BitDecoder.CountsOk, up, reduceCtorEq, false_implies, true_implies, and_true]
      omega
    · simp [BitDecoder.CountsOk, hb, h1, lt]
  case finish =>
    simp only [BitDecoder.classify, BitDecoder.CountsOk, BitDecoder.quiet_dcnt, mark, reduceCtorEq,
      false_implies, true_implies, true_and, countsDown]
    omega
  case waitMark =>
    unfold BitDecoder.waitMark
    split_ifs with t one
    · simp [BitDecoder.CountsOk, h1]
    · exact ⟨h1, by simp [hb], by simp [hb], fun _ => countsDown_pred (h4 hb) one⟩
    · exact ⟨h1, by simp [hb], by simp [hb], fun _ => h4 hb⟩

/-- An accepted bit read leaves IDLE with the count at 0 (R243). -/
theorem BitDecoder.acceptRead_facts {c : Config} (hc : c.accepted = true) (w : Bool)
    (b : BitDecoder) :
    (b.acceptRead w).dst ≠ .idle ∧ (b.acceptRead w).dfin = false ∧ (b.acceptRead w).CountsOk c := by
  have bd := Config.accepted_bounds c hc
  cases w
  · simp [BitDecoder.acceptRead, BitDecoder.CountsOk]
    omega
  · simp [BitDecoder.acceptRead, BitDecoder.CountsOk]

end Sys2Proof.Machine
end

