-- ==== Sys2Proof/Tests/Slice0.lean ====
section
/-! SUPPORT. The model's own tests: ill-formed terms refused, words written out from the spec's
encodings, single steps with the values of 95_test_vectors.md, and for every obligation with
hypotheses a witness that meets them. -/

namespace Sys2Proof.Tests

open Sys2Proof.Machine

/-! ## Small states

Each is attached and idle at 8 MHz, except where its name says otherwise; `is` are the inputs of the
coming cycles. -/

/-- A cycle with nothing from outside and the send channel ready. -/
def still : Inputs :=
  { rst := false, rxReady := false, rxData := 0, txReady := true, targetLow := false }

/-- A cycle in which ByteLink offers a byte. -/
def offer (b : Byte) : Inputs := { still with rxReady := true, rxData := b }

/-- A cycle in which the target pulls the line low. -/
def low : Inputs := { still with targetLow := true }

/-- The reset cycle's input. -/
def rstIn : Inputs := { still with rst := true }

/-- The vectors' configuration. -/
def cfg : Config := Config.source 8000000 false

/-- Attached, everything idle, the dispatcher in `c` with command byte `code`. -/
def at_ (c : DispatcherState) (code : Byte) (is : List Inputs) : State :=
  let s := State.resetWith cfg { pending := is, draws := 0, held := none }
  { s with
    emitter := { s.emitter with est := .idle }
    dispatcher := { s.dispatcher with cst := c, cmd := code, creg := 0x7A, cwdata := 0x55AACA15 } }

/-- The start pulse of a write of 0x55AACA15 to 0x7A. -/
def starting (is : List Inputs) : State :=
  let s := at_ .waitDone 0x77 is
  { s with dispatcher := { s.dispatcher with swR := true } }

/-- In the frame of that write (or, with `'r'`, of a read of 0x7A). -/
def inFrame (code : Byte) (t : TransactorState) (idx : BitVec 5) (issued : Bool)
    (is : List Inputs) : State :=
  let s := at_ .waitDone code is
  { s with
    transactor :=
      { s.transactor with
        tst := t, idx := idx, issued := issued, op := code == 0x77, treg := 0x7A,
        twdata := 0x55AACA15 } }

/-- In a bit read, the decoder in `d`. -/
def inBitRead (d : DecoderState) (is : List Inputs) : State :=
  let s := inFrame 0x72 .rdata 31 true is
  { s with decoder := { s.decoder with dst := d, mcnt := 4 } }

/-- The symbol of an address bit is on the line, with `n` ticks left. -/
def inSpace (n : BitVec 5) : State :=
  let s := inFrame 0x77 .addr 6 true [still]
  { s with emitter := { s.emitter with est := .space, bcnt := n } }

/-- The cycle of `e_finish`. -/
def atFinish : State :=
  let s := inFrame 0x77 .addr 6 true [still]
  { s with emitter := { s.emitter with efin := true } }

/-- The cycle of `d_finish`, the bit read being 1. -/
def atBitFinish : State :=
  let s := inBitRead .idle [still]
  { s with decoder := { s.decoder with dfin := true, dbit := true } }

/-- The cycle of `t_done`. -/
def atDone (code : Byte) : State :=
  let s := at_ .waitDone code [still]
  { s with transactor := { s.transactor with tdone := true, rshift := 0xFEEDAA55 } }

/-- Both start pulses at once: no legal state. -/
def bothStarts : State :=
  let s := starting [still]
  { s with dispatcher := { s.dispatcher with srR := true } }

/-- A clock below 8 MHz. -/
def slow : State := { at_ .waitCmd 0 [still] with cfg := Config.source 7999999 false }

/-- ByteLink has withdrawn a byte it had offered. -/
def broken : State :=
  let s := at_ .waitCmd 0 [still]
  { s with env := { s.env with held := some 0x3F } }

/-- The outcome is a next state of which `p` holds. -/
def nextIs (o : Host.Outcome State Fault Refusal) (p : State → Bool) : Bool :=
  match o with
  | .next t => p t
  | .fault _ => false
  | .refused _ => false

/-- The outcome is a next state. -/
def isNext (o : Host.Outcome State Fault Refusal) : Bool := nextIs o fun _ => true

/-- Every state of the dispatcher. -/
def allCst : List DispatcherState :=
  [.init, .waitCmd, .dispatch, .recvReg, .recvData, .startTx, .waitDone, .sendData, .sendAck]

/-- A build with other values of the four parameters than the source's. -/
def narrow : Config :=
  { cfg with addrBits := 5, dataBits := 8, greetingByte := 0x3E, ackByte := 0x2A }

/-- A state in that build. -/
def narrowed (s : State) : State := { s with cfg := narrow }

/-! ## Well-formedness and decoding -/

/-- R8, log entry 3: an address the build has no bits for is no operand. -/
theorem test_ill_formed_registers_refused :
    (Instr.writeReg 0x20 0).wellFormed narrow = false ∧
      (Instr.readReg 0x7F).wellFormed narrow = false ∧
      (Instr.readReg 0x1F).wellFormed narrow = true := by decide

/-- R10, log entry 10: relations broken, and widths the registers of R22 to R27 do not hold. -/
theorem test_configurations_refused :
    [{ cfg with decErrTicks := 95 }, { cfg with decOneMaxTicks := 8 }, { cfg with stopTicks := 32 },
      { cfg with markTicks := 0 }, { cfg with addrBits := 8 }, { cfg with addrBits := 0 },
      { cfg with dataBits := 33 }, { cfg with dataBits := 0 }].all (fun c => !c.accepted) ∧
      narrow.accepted := by decide

/-- R8: the bytes and widths are the build's. -/
theorem test_parameters_from_the_record :
    decodeHost narrow [0x72, 0xFF] = .ok (.readReg 0x1F) ∧
      decodeOutput narrow 0x3E = .ok .greeting ∧
      decodeOutput narrow 0x21 = .error .notTheGreeting := by decide

/-- R84: none of the five codes is an IGNORED byte. -/
theorem test_ill_formed_refused :
    [0x3F#8, 0x70#8, 0x50#8, 0x77#8, 0x72#8].all (fun b => !(Instr.ignored b).wellFormed cfg) := by
  decide

/-- R84: the bytes next to them are. -/
theorem test_well_formed : [0x00#8, 0x21#8, 0x3E#8, 0x71#8, 0x78#8, 0xFF#8].all
    (fun b => (Instr.ignored b).wellFormed cfg) := by decide

/-- R82. -/
theorem test_decode_one_byte :
    decodeHost cfg [0b00111111#8] = .ok .test ∧ decodeHost cfg [0b01110000#8] = .ok .powerOn ∧
      decodeHost cfg [0b01010000#8] = .ok .powerOff ∧
      decodeHost cfg [0b00100001#8] = .ok (.ignored 0b00100001#8) := by decide

/-- R82, R85, R86; S6 and S7: bit 7 of the register byte does not count. -/
theorem test_decode_register_frames :
    decodeHost cfg [0x77#8, 0xFA#8, 0x15#8, 0xCA#8, 0xAA#8, 0x55#8] =
        .ok (.writeReg 0x7A 0x55AACA15) ∧
      decodeHost cfg [0x72#8, 0x35#8] = .ok (.readReg 0x35) ∧
      decodeHost cfg [0x77#8, 0x7A#8] = .error .frameIncomplete := by decide

/-- R81. -/
theorem test_decode_output :
    decodeOutput cfg 0b00100001#8 = .ok .greeting ∧ decodeOutput cfg 0x2B#8 = .error .notTheGreeting := by
  decide

/-- R88. -/
theorem test_decode_start :
    decodeStart 0b10#2 0x7A 0x55AACA15 = .ok (.startWrite 0x7A 0x55AACA15) ∧
      decodeStart 0b01#2 0x35 0 = .ok (.startRead 0x35) ∧
      decodeStart 0b00#2 0 0 = .error .noRequest ∧
      decodeStart 0b11#2 0 0 = .error .conflictingStart := by decide

/-- R89. -/
theorem test_decode_emit :
    decodeEmit 0b100#3 = .ok .emitBit0 ∧ decodeEmit 0b101#3 = .ok .emitBit1 ∧
      decodeEmit 0b110#3 = .ok .emitStart ∧ decodeEmit 0b111#3 = .ok .emitStop ∧
      decodeEmit 0b011#3 = .error .noRequest := by decide

/-- R90. -/
theorem test_decode_dec : decodeDec 1#1 = .ok .readBit ∧ decodeDec 0#1 = .error .noRequest := by
  decide

/-- The opcode table's words (log entry 7). -/
theorem test_table_words :
    decodeTableWord 8 0x3F = some .test ∧ decodeTableWord 8 0x70 = some .powerOn ∧
      decodeTableWord 8 0x50 = some .powerOff ∧ decodeTableWord 8 0x77 = some (.writeReg 0 0) ∧
      decodeTableWord 8 0x72 = some (.readReg 0) ∧ decodeTableWord 8 0 = some (.ignored 0) ∧
      decodeTableWord 8 0x21 = some .greeting ∧ decodeTableWord 8 2 = some (.startWrite 0 0) ∧
      decodeTableWord 8 1 = some (.startRead 0) ∧ decodeTableWord 8 4 = some .emitBit0 ∧
      decodeTableWord 8 7 = some .emitStop ∧ decodeTableWord 1 1 = some .readBit := by decide

/-! ## One step each -/

/-- A placed word is what the first step runs. -/
theorem test_placed_words_are_fetched :
    [(8, 0x3F), (8, 0x77), (8, 0x72), (8, 0), (8, 0x21), (8, 2), (8, 1), (8, 4), (8, 7),
      (1, 1)].all (fun x =>
      (State.reset.withFetchWord x.1 x.2).fetch == decodeTableWord x.1 x.2) := by decide

/-- R138: TEST goes to SEND_ACK. -/
theorem test_test : nextIs (step (at_ .dispatch 0x3F [still]))
    (fun t => t.dispatcher.cst == .sendAck && !t.dispatcher.power) := by decide

/-- R136. -/
theorem test_power_on : nextIs (step (at_ .dispatch 0x70 [still]))
    (fun t => t.dispatcher.cst == .sendAck && t.dispatcher.power) := by decide

/-- R137. -/
theorem test_power_off :
    nextIs (step { at_ .dispatch 0x50 [still] with
      dispatcher := { (at_ .dispatch 0x50 [still]).dispatcher with power := true } })
    (fun t => t.dispatcher.cst == .sendAck && !t.dispatcher.power) := by decide

/-- R141: an unknown byte sends nothing. -/
theorem test_ignored : nextIs (step (at_ .dispatch 0x78 [still]))
    (fun t => t.dispatcher.cst == .waitCmd && !t.dispatcher.txStartR) := by decide

/-- R143: the second data byte of S6 lands in bits 15 to 8, the rest stands. -/
theorem test_write_reg_lane :
    nextIs (step { at_ .recvData 0x77 [offer 0x3C] with
      dispatcher := { (at_ .recvData 0x77 []).dispatcher with cidx := 1 } })
    (fun t => t.dispatcher.cwdata == 0x55AA3C15 && t.dispatcher.cidx == 2) := by decide

/-- R142: the register byte of a write, bit 7 dropped, and the lane counter cleared. -/
theorem test_write_reg_register : nextIs (step (at_ .recvReg 0x77 [offer 0xFF]))
    (fun t => t.dispatcher.creg == 0x7F && t.dispatcher.cst == .recvData) := by decide

/-- R145: the result of S7 is captured at `t_done`. -/
theorem test_read_reg_result : nextIs (step (atDone 0x72))
    (fun t => t.dispatcher.crdata == 0xFEEDAA55 && t.dispatcher.cst == .sendData) := by decide

/-- R146: S7's second reply byte is 0xAA. -/
theorem test_read_reg_second_byte :
    nextIs (step { at_ .sendData 0x72 [still] with
      dispatcher := { (at_ .sendData 0x72 []).dispatcher with crdata := 0xFEEDAA55, cidx := 1 } })
    (fun t => t.dispatcher.txDataR == 0xAA && t.dispatcher.txStartR) := by decide

/-- R133. -/
theorem test_greeting : nextIs (step (at_ .init 0 [still]))
    (fun t => t.dispatcher.txDataR == 0x21 && t.dispatcher.cst == .waitCmd) := by decide

/-- R133: not while the send channel is busy. -/
theorem test_greeting_waits : nextIs (step (at_ .init 0 [{ still with txReady := false }]))
    (fun t => t.dispatcher.cst == .init && !t.dispatcher.txStartR) := by decide

/-- R8, R133, R147: the greeting and the ack of another build. -/
theorem test_greeting_and_ack_from_the_record :
    nextIs (step (narrowed (at_ .init 0 [still]))) (fun t => t.dispatcher.txDataR == 0x3E) ∧
      nextIs (step (narrowed (at_ .sendAck 0x3F [still]))) (fun t => t.dispatcher.txDataR == 0x2A) := by
  decide

/-- R8, R178: an address of 5 bits goes out from bit 4. -/
theorem test_address_width_from_the_record :
    nextIs (step { narrowed atFinish with
      transactor := { atFinish.transactor with tst := .start, idx := 0 } })
    (fun t => t.transactor.tst == .addr && t.transactor.idx == 4) := by decide

/-- R173. -/
theorem test_start_write : nextIs (step (starting [still]))
    (fun t => t.transactor.tst == .start && t.transactor.op && t.transactor.treg == 0x7A &&
      t.transactor.twdata == 0x55AACA15) := by decide

/-- R174: `twdata` is left alone. -/
theorem test_start_read :
    nextIs (exec (.startRead 0x35) (at_ .waitDone 0x72 [still]))
    (fun t => t.transactor.tst == .start && !t.transactor.op && t.transactor.treg == 0x35 &&
      t.transactor.twdata == 0) := by decide

/-- R206, vector E4: 8 ticks of low for a 0 bit; A2 of 0x7A is 0. -/
theorem test_emit_bit0 : nextIs (step (inFrame 0x77 .addr 2 false [still]))
    (fun t => t.emitter.est == .space && t.emitter.bcnt == 8) := by decide

/-- R207, vector E4: 2 ticks for a 1 bit; A6 of 0x7A is 1. -/
theorem test_emit_bit1 : nextIs (step (inFrame 0x77 .addr 6 false [still]))
    (fun t => t.emitter.est == .space && t.emitter.bcnt == 2) := by decide

/-- R208. -/
theorem test_emit_start : nextIs (step (inFrame 0x77 .start 0 false [still]))
    (fun t => t.emitter.est == .space && t.emitter.bcnt == 2 && t.transactor.issued) := by decide

/-- R209: 20 released ticks. -/
theorem test_emit_stop : nextIs (step (inFrame 0x77 .stop 0 false [still]))
    (fun t => t.emitter.line == .released && t.emitter.bcnt == 20) := by decide

/-- R210, vector E4: the last SPACE tick loads 4 MARK ticks. -/
theorem test_space_to_mark : nextIs (step (inSpace 1))
    (fun t => t.emitter.est == .mark && t.emitter.bcnt == 4 && !t.emitter.efin) := by decide

/-- R243, vector D1: a high line at the request leads to SETUP. -/
theorem test_read_bit_high : nextIs (step (inFrame 0x72 .rdata 31 false [still]))
    (fun t => t.decoder.dst == .setup) := by decide

/-- R243, vector D2: a low line at the request leads straight to CAPTURE. -/
theorem test_read_bit_low : nextIs (step (inFrame 0x72 .rdata 31 false [low]))
    (fun t => t.decoder.dst == .capture) := by decide

/-- R182: the bit read enters at the low end, the index goes down. -/
theorem test_bit_shifts_in : nextIs (step atBitFinish)
    (fun t => t.transactor.rshift == 1 && t.transactor.idx == 30) := by decide

/-- R175, X3. -/
theorem test_both_starts_fault : step bothStarts = .fault .conflictingStart := rfl

/-- R21 to R28, R300: what `State.reset` holds. -/
theorem test_reset : State.reset.emitter.msCnt = 5 ∧ State.reset.emitter.est = .attachHigh ∧
    State.reset.dispatcher.cst = .init ∧ State.reset.dispatcher.power = false := by decide

/-- R313: TEST ends in cycle 4, an ignored byte, which gets no answer, in cycle 2. -/
theorem test_program_end :
    let s := at_ .waitCmd 0 [offer 0x3F, offer 0x3F, still, still]
    let u := at_ .waitCmd 0 [offer 0x78, offer 0x78]
    (List.range 5).map (s.completeAt [0x3F]) = [false, false, false, false, true] ∧
      (List.range 3).map (u.completeAt [0x78]) = [false, false, true] := by decide

/-- R81, R133, R313: from INIT the greeting is owed before the empty program has ended; a read owes
four result bytes and the ack, an incomplete frame nothing. -/
theorem test_replies_owed :
    (List.range 3).map ((at_ .init 0 [still, still]).completeAt []) = [false, false, true] ∧
      (at_ .waitCmd 0 []).repliesOwed [0x72, 0x05, 0x3F, 0x78, 0x77, 0x01] = 6 := by decide

/-! ## Witnesses: the hypotheses of the obligations are met

A theorem `wit_<Name>` is about `Obligations.<Name>`. -/

theorem wit_DecodeOfEncodeIsTheInstruction :
    (Instr.ignored 0x00).wellFormed cfg = true ∧ (Instr.ignored 0xFF).wellFormed cfg = true ∧
      (Instr.writeReg 127 0xFFFFFFFF).wellFormed cfg = true := by decide

/-- R85: bits above the address are dropped: hypotheses of `FrameOperandsAreAssembled`. -/
theorem wit_FrameOperandsAreAssembled : cfg.accepted = true ∧ cfg.addrBits = 7 ∧
    narrow.accepted = true := by decide

theorem wit_DecodedInstructionBelongsToItsPort :
    decode cfg (.host [0x72, 0xFF]) = .ok (.readReg 127) ∧
      decode cfg (.start 1 0 0xFFFFFFFF) = .ok (.startRead 0) := by decide

theorem wit_FirstByteFixesFrameLength :
    [1, 2, 3, 4, 5].length = (if (0x77#8 : Byte) = 0x77#8 then 5 else 0) ∧
      [1, 2, 3, 4].length < 5 ∧
      [1].length = (if (0x72#8 : Byte) = 0x77#8 then 5 else if (0x72#8 : Byte) = 0x72#8 then 1
        else 0) ∧
      ([] : List Byte).length < 1 ∧
      ([] : List Byte).length = (if (0x3F#8 : Byte) = 0x77#8 then 5
        else if (0x3F#8 : Byte) = 0x72#8 then 1 else 0) := by decide

theorem wit_OtherFirstBytesAreIgnoredFrames :
    [0x00#8, 0x3E#8, 0x40#8, 0x78#8, 0xFF#8].all (fun c => c != 0x3F#8 && c != 0x50#8 &&
      c != 0x70#8 && c != 0x72#8 && c != 0x77#8) := by decide

/-- One state for each of the five ports. -/
theorem wit_StepRunsAnyCarriedInstruction :
    ((at_ .dispatch 0x3F [still]).runs = true ∧
      (at_ .dispatch 0x3F [still]).carried .hostLink = some .test) ∧
    ((at_ .init 0 [still]).runs = true ∧
      (at_ .init 0 [still]).carried .deviceOutput = some .greeting) ∧
    ((starting [still]).runs = true ∧
      (starting [still]).carried .transactorStart = some (.startWrite 0x7A 0x55AACA15)) ∧
    ((inFrame 0x77 .dir 0 false [still]).runs = true ∧
      (inFrame 0x77 .dir 0 false [still]).carried .emitterRequest = some .emitBit1) ∧
    ((inFrame 0x72 .rdata 0 false [still]).runs = true ∧
      (inFrame 0x72 .rdata 0 false [still]).carried .decoderRequest = some .readBit) := by decide

/-- One state for each clause. -/
theorem wit_StepAroundTheInstruction :
    slow.cfg.accepted = false ∧
    ((at_ .waitCmd 0 [rstIn]).cfg.accepted = true ∧ (at_ .waitCmd 0 [rstIn]).inputs.rst = true) ∧
    (broken.cfg.accepted = true ∧ broken.inputs.rst = false ∧ broken.linkKept = false) ∧
    ((at_ .waitCmd 0 [still]).runs = true ∧
      [Port.hostLink, .deviceOutput, .transactorStart, .emitterRequest, .decoderRequest].all
        (fun p => (at_ .waitCmd 0 [still]).carried p == none)) := by decide

/-- Both outcomes. -/
theorem wit_StepIsOneLockstepCycle :
    (bothStarts.runs = true ∧ bothStarts.transactor.tst = .idle ∧
      bothStarts.dispatcher.swR = true ∧ bothStarts.dispatcher.srR = true) ∧
    ((starting [still]).runs = true ∧ (starting [still]).dispatcher.srR = false) := by decide

theorem wit_RstLeadsToResetState :
    (at_ .dispatch 0x70 [rstIn]).cfg.accepted = true ∧
      (at_ .dispatch 0x70 [rstIn]).inputs.rst = true := by decide

theorem wit_SlowClocksAreRefused :
    8000000 ≤ 8000000 ∧ slow.cfg = Config.source 7999999 false ∧ 7999999 < 8000000 := by decide

theorem wit_StepRefusesOnlyTheOutside :
    step slow = .refused .configRefused ∧ step broken = .refused .byteLinkBroken := ⟨rfl, rfl⟩

/-- With and without a tick of EMS. -/
theorem wit_TickSourcesAccumulate :
    (((at_ .waitCmd 0 [still]).runs && (at_ .waitCmd 0 [still]).noConflict) = true ∧
      (at_ .waitCmd 0 [still]).msTick = false) ∧
    (({ at_ .waitCmd 0 [still] with ems := ⟨7999000⟩ } : State).runs = true ∧
      ({ at_ .waitCmd 0 [still] with ems := ⟨7999000⟩ } : State).noConflict = true ∧
      ({ at_ .waitCmd 0 [still] with ems := ⟨7999000⟩ } : State).msTick = true) := by decide

/-- In every state of the dispatcher, with a byte offered and without. -/
theorem wit_DispatcherFollowsItsStateRules :
    allCst.all (fun c =>
      (at_ c 0x77 [offer 0]).runs && (at_ c 0x77 [offer 0]).noConflict &&
        (at_ c 0x72 [still]).runs && (at_ c 0x72 [still]).noConflict) := by decide

theorem wit_LaneInsertReplacesOneLane : 0 < 32 ∧ 31 < 32 ∧ 0 < 8 ∧ 7 < 8 := by decide

/-- In every state of the transactor, before and after the request. -/
theorem wit_TransactorFollowsItsStateRules :
    (6 : BitVec 5).toNat + 1 = cfg.addrBits ∧ (31 : BitVec 5).toNat + 1 = cfg.dataBits ∧
    ((starting [still]).runs && (starting [still]).noConflict) = true ∧
      [TransactorState.idle, .start, .addr, .dir, .wdata, .rdata, .stop].all (fun t =>
        [false, true].all fun i =>
          (inFrame 0x77 t 0 i [still]).runs && (inFrame 0x77 t 0 i [still]).noConflict) := by
  decide

theorem wit_EmitterFollowsItsStateRules :
    ((State.resetWith cfg (at_ .init 0 [still]).env).runs &&
      (State.resetWith cfg (at_ .init 0 [still]).env).noConflict) = true ∧
    ((inSpace 1).runs && (inSpace 1).noConflict) = true ∧
    ((inFrame 0x77 .stop 0 false [still]).runs &&
      (inFrame 0x77 .stop 0 false [still]).noConflict) = true := by decide

theorem wit_DecoderFollowsItsStateRules :
    [DecoderState.idle, .setup, .capture, .finish, .waitMark].all (fun d =>
      (inBitRead d [low]).runs && (inBitRead d [low]).noConflict &&
        (inBitRead d [still]).runs && (inBitRead d [still]).noConflict) ∧
    nextIs (step { inBitRead .finish [low] with
      decoder := { (inBitRead .finish []).decoder with dcnt := 96 } })
      (fun t => t.decoder.derr) := by decide

/-- One state for each clause. -/
theorem wit_LineLevelFollowsItsDrivers :
    (at_ .waitCmd 0 [low]).emitter.swioOe = false ∧
    (State.reset.emitter.swioOe = true ∧
      (State.resetWith cfg (at_ .init 0 [still]).env).inputs.targetLow = false) ∧
    ((inSpace 2).emitter.swioOe = true ∧ (inSpace 2).emitter.swioOut = false) := by decide

theorem wit_OneByteCommandsInDispatch :
    (at_ .dispatch 0x3F [still]).noConflict = true ∧
      (at_ .dispatch 0x3F [still]).dispatcher.cst = .dispatch := by decide

theorem wit_CommandByteIsTaken :
    (at_ .waitCmd 0 [offer 0x77]).noConflict = true ∧
      (at_ .waitCmd 0 [offer 0x77]).dispatcher.cst = .waitCmd ∧
      encode cfg (.writeReg 0x7A 0x55AACA15) = .host (0x77 :: [0x7A, 0x15, 0xCA, 0xAA, 0x55]) := by
  decide

theorem wit_AckIsHandedOver :
    (at_ .sendAck 0x3F [still]).noConflict = true ∧
      (at_ .sendAck 0x3F [still]).dispatcher.cst = .sendAck := by decide

/-- In each state of the command's path. -/
theorem wit_WriteRegAcrossItsStates :
    [DispatcherState.dispatch, .recvReg, .recvData, .startTx, .waitDone].all (fun c =>
      (at_ c 0x77 [offer 1]).noConflict && c != .init && c != .waitCmd && c != .sendData &&
        c != .sendAck) := by decide

/-- In each state of the command's path. -/
theorem wit_ReadRegAcrossItsStates :
    [DispatcherState.dispatch, .recvReg, .startTx, .waitDone, .sendData].all (fun c =>
      (at_ c 0x72 [offer 1]).noConflict && c != .init && c != .waitCmd && c != .recvData &&
        c != .sendAck) := by decide

theorem wit_FourBytesMakeAWord :
    (at_ .recvData 0x77 [offer 1]).dispatcher.cidx = 0 ∧
      (at_ .recvData 0x77 [offer 1]).dispatcherIn.rxOk = true ∧
      (at_ .sendData 0x72 [still]).dispatcher.cidx = 0 ∧
      (at_ .sendData 0x72 [still]).dispatcherIn.txOk = true := by decide

theorem wit_GreetingWhenBothReady :
    (at_ .init 0 [still]).noConflict = true ∧ (at_ .init 0 [still]).dispatcher.cst = .init := by
  decide

theorem wit_StartWriteInIdle :
    (starting [still]).transactor.tst = .idle ∧ (starting [still]).dispatcher.srR = false := by
  decide

theorem wit_StartReadInIdle :
    (at_ .waitDone 0x72 [still]).transactor.tst = .idle ∧
      (at_ .waitDone 0x72 [still]).dispatcher.swR = false := by decide

theorem wit_StartOutsideIdleIsLost :
    (inFrame 0x77 .stop 0 true [still]).transactor.tst ≠ .idle := by decide

theorem wit_BothStartsAreTheFault :
    bothStarts.transactor.tst = .idle ∧ bothStarts.dispatcher.swR = true ∧
      bothStarts.dispatcher.srR = true ∧ bothStarts.runs = true := by decide

theorem wit_EmitRequestsInIdle :
    (inFrame 0x77 .stop 0 false [still]).noConflict = true ∧
      (inFrame 0x77 .stop 0 false [still]).emitter.est = .idle := by decide

theorem wit_EmitRequestOutsideIdleIsIgnored :
    (inSpace 1).noConflict = true ∧ (inSpace 1).emitter.est ≠ .idle ∧
      State.reset.noConflict = true ∧ State.reset.emitter.est ≠ .idle ∧
      Instr.emitStop.port = .emitterRequest := by decide

theorem wit_ReadBitInIdle :
    (inFrame 0x72 .rdata 31 false [still]).noConflict = true ∧
      (inFrame 0x72 .rdata 31 false [still]).decoder.dst = .idle := by decide

theorem wit_ReadBitOutsideIdleIsIgnored :
    (inBitRead .setup [low]).noConflict = true ∧ (inBitRead .setup [low]).decoder.dst ≠ .idle := by
  decide

/-- Every instruction completes, in every state of the dispatcher. -/
theorem wit_DispatcherRegisterFrame :
    [Instr.test, .powerOn, .powerOff, .writeReg 1 2, .readReg 3, .ignored 0, .greeting,
      .startWrite 1 2, .startRead 3, .emitBit0, .emitBit1, .emitStart, .emitStop, .readBit].all
      (fun i => allCst.all fun c => isNext (exec i (at_ c 0x72 [still]))) := by decide

/-- In a frame and outside one, at the end of a bit read and before it. -/
theorem wit_TransactorRegisterFrame :
    isNext (exec (.startRead 3) (at_ .waitDone 0x72 [still])) ∧
      isNext (exec .readBit (inFrame 0x72 .rdata 31 false [still])) ∧
      isNext (exec .readBit atBitFinish) := by decide

theorem wit_LineRegisterFrame :
    isNext (exec .emitStop (State.resetWith cfg (at_ .init 0 [still]).env)) ∧
      isNext (exec .emitStop (inSpace 1)) ∧ isNext (exec .readBit (inBitRead .capture [low])) := by
  decide

/-! ### Legal states -/

theorem legal_reset : CoreInv (State.resetWith cfg (at_ .init 0 [still]).env) := by
  constructor <;> decide

theorem legal_init : CoreInv (at_ .init 0 [still]) := by constructor <;> decide

theorem legal_dispatch : CoreInv (at_ .dispatch 0x3F [still]) := by constructor <;> decide

theorem legal_starting : CoreInv (starting [still]) := by constructor <;> decide

theorem legal_symbol_request : CoreInv (inFrame 0x77 .addr 6 false [still]) := by
  constructor <;> decide

theorem legal_in_space : CoreInv (inSpace 1) := by constructor <;> decide

theorem legal_finish : CoreInv atFinish := by constructor <;> decide

theorem legal_bit_request : CoreInv (inFrame 0x72 .rdata 31 false [still]) := by
  constructor <;> decide

theorem legal_setup : CoreInv (inBitRead .setup [still, still]) := by constructor <;> decide

theorem legal_bit_finish : CoreInv atBitFinish := by constructor <;> decide

theorem legal_done : CoreInv (atDone 0x72) := by constructor <;> decide

theorem wit_HostCommandFrameInDispatch : CoreInv (at_ .dispatch 0x3F [still]) ∧
    (at_ .dispatch 0x3F [still]).dispatcher.cst = .dispatch ∧ Instr.test.port = .hostLink ∧
    isNext (exec .test (at_ .dispatch 0x3F [still])) :=
  ⟨legal_dispatch, rfl, rfl, by decide⟩

/-- One legal state for each of the four ports. -/
theorem wit_RequestFrameInsideTheCore :
    (CoreInv (starting [still]) ∧
      (starting [still]).carried .transactorStart = some (.startWrite 0x7A 0x55AACA15) ∧
      isNext (exec (.startWrite 0x7A 0x55AACA15) (starting [still]))) ∧
    (CoreInv (inFrame 0x77 .addr 6 false [still]) ∧
      (inFrame 0x77 .addr 6 false [still]).carried .emitterRequest = some .emitBit1 ∧
      isNext (exec .emitBit1 (inFrame 0x77 .addr 6 false [still]))) ∧
    (CoreInv (inFrame 0x72 .rdata 31 false [still]) ∧
      (inFrame 0x72 .rdata 31 false [still]).carried .decoderRequest = some .readBit ∧
      isNext (exec .readBit (inFrame 0x72 .rdata 31 false [still]))) ∧
    (CoreInv (at_ .init 0 [still]) ∧
      (at_ .init 0 [still]).carried .deviceOutput = some .greeting ∧
      isNext (exec .greeting (at_ .init 0 [still]))) :=
  ⟨⟨legal_starting, by decide, by decide⟩, ⟨legal_symbol_request, by decide, by decide⟩,
    ⟨legal_bit_request, by decide, by decide⟩, ⟨legal_init, by decide, by decide⟩⟩

theorem wit_ResetStateIsLegal : cfg.accepted = true ∧
    (Config.source 16000000 true).accepted = true := by decide

theorem wit_EveryStepKeepsTheCoreInvariant :
    CoreInv (starting [still]) ∧ isNext (step (starting [still])) ∧
      CoreInv atBitFinish ∧ isNext (step atBitFinish) :=
  ⟨legal_starting, by decide, legal_bit_finish, by decide⟩

theorem wit_LegalStatesNeverFault : CoreInv (starting [still]) := legal_starting

theorem wit_LineIsReleasedDuringABitRead :
    (CoreInv (inBitRead .setup [still, still]) ∧
      (inBitRead .setup [still, still]).decoder.dst ≠ .idle) ∧
    (CoreInv (inFrame 0x72 .rdata 31 false [still]) ∧
      (inFrame 0x72 .rdata 31 false [still]).transactor.tst = .rdata) :=
  ⟨⟨legal_setup, by decide⟩, ⟨legal_bit_request, rfl⟩⟩

/-- One legal state for each clause. -/
theorem wit_EveryPulseIsObserved :
    (CoreInv (inFrame 0x77 .addr 6 false [still]) ∧
      (inFrame 0x77 .addr 6 false [still]).transactor.emitReq = true) ∧
    (CoreInv (inFrame 0x72 .rdata 31 false [still]) ∧
      (inFrame 0x72 .rdata 31 false [still]).transactor.decReq = true) ∧
    (CoreInv (starting [still]) ∧ (starting [still]).dispatcher.swR = true) ∧
    (CoreInv atFinish ∧ atFinish.emitter.efin = true) ∧
    (CoreInv atBitFinish ∧ atBitFinish.decoder.dfin = true) ∧
    (CoreInv (atDone 0x72) ∧ (atDone 0x72).transactor.tdone = true) :=
  ⟨⟨legal_symbol_request, rfl⟩, ⟨legal_bit_request, rfl⟩, ⟨legal_starting, rfl⟩,
    ⟨legal_finish, rfl⟩, ⟨legal_bit_finish, rfl⟩, ⟨legal_done, rfl⟩⟩

/-- Each of the legal states above steps; with them the pulses of the dispatcher. -/
theorem wit_PulsesLastOneCycle :
    CoreInv { at_ .dispatch 0x3F [still] with
      dispatcher := { (at_ .dispatch 0x3F []).dispatcher with rxAckR := true } } ∧
    CoreInv { at_ .waitCmd 0x3F [still] with
      dispatcher := { (at_ .waitCmd 0x3F []).dispatcher with txStartR := true } } ∧
    CoreInv { at_ .waitDone 0x72 [still] with
      dispatcher := { (at_ .waitDone 0x72 []).dispatcher with srR := true } } ∧
    isNext (step atFinish) ∧ isNext (step atBitFinish) ∧ isNext (step (atDone 0x72)) ∧
    isNext (step (starting [still])) ∧ isNext (step (inFrame 0x77 .addr 6 false [still])) ∧
    isNext (step (inFrame 0x72 .rdata 31 false [still])) :=
  ⟨by constructor <;> decide, by constructor <;> decide, by constructor <;> decide,
    by decide, by decide, by decide, by decide, by decide, by decide⟩

/-- For each branch. -/
theorem wit_PowerChangesOnlyByItsCommands :
    isNext (step (at_ .dispatch 0x70 [still])) ∧ isNext (step (at_ .dispatch 0x50 [still])) ∧
      isNext (step (at_ .sendAck 0x70 [still])) ∧
      (at_ .sendAck 0x70 [still]).inputs.rst = false := by decide

theorem wit_OnlyGreetingResultAndAckAreSent :
    [DispatcherState.init, .sendData, .sendAck].all (fun c =>
      nextIs (step (at_ c 0x72 [still])) fun t => t.dispatcher.txStartR) := by decide

theorem wit_BytesAreTakenOnlyWhereAwaited :
    [DispatcherState.waitCmd, .recvReg, .recvData].all (fun c =>
      nextIs (step (at_ c 0x77 [offer 1])) fun t => t.dispatcher.rxAckR) := by decide

theorem wit_AttachAndGreetingRunOncePerReset :
    isNext (step (at_ .waitCmd 0 [still])) ∧ (at_ .waitCmd 0 [still]).inputs.rst = false ∧
      (at_ .waitCmd 0 [still]).emitter.ready = true ∧
      (at_ .waitCmd 0 [still]).emitter.est ≠ .attachHigh ∧
      (at_ .waitCmd 0 [still]).dispatcher.cst ≠ .init := by decide

theorem wit_TickSourceLaw : 1 ≤ 8000000 ∧ 1000 ≤ 8000000 ∧ 8000000 ≤ 8000000 := by decide

/-- Before the last tick and at it, in SPACE and in MARK. -/
theorem wit_SymbolPhaseLastsItsTicks :
    cfg.accepted = true ∧ (inSpace 2).emitter.inSymbol = true ∧
      1 ≤ (inSpace 2).emitter.bcnt.toNat ∧
      tickCount [false, true] < (inSpace 2).emitter.bcnt.toNat ∧
      tickCount [false, true] + 1 = (inSpace 2).emitter.bcnt.toNat ∧
      (inSpace 2).emitter.est = .space ∧
      ({ (inSpace 1).emitter with est := .mark } : BitEmitter).inSymbol = true ∧
      tickCount [false] + 1 = (inSpace 1).emitter.bcnt.toNat := by decide

/-- A short low, and the low that ends on the 96th tick. -/
theorem wit_LowDurationDecidesTheBit :
    cfg.accepted = true ∧ (inBitRead .capture []).decoder.dst = .capture ∧
      (inBitRead .capture []).decoder.dcnt = 0 ∧
      tickCount (List.replicate 4 true) < cfg.decErrTicks ∧
      tickCount (List.replicate 95 true) + 1 = cfg.decErrTicks := by decide

theorem wit_ShapesAreToldApart :
    cfg.accepted = true ∧ (2#7).toNat ≤ cfg.space1Ticks ∧ (8#7).toNat = cfg.space0Ticks ∧
      cfg.decOneMaxTicks + 1 < cfg.space0Ticks ∧ (7#7).toNat + 1 = cfg.space0Ticks ∧
      classifyError cfg 96 = true := by decide

/-- With an error among the bits, and without. -/
theorem wit_BitsReadMakeTheWord :
    cfg.accepted = true ∧ (List.replicate 32 (true, false)).length = cfg.dataBits ∧
      ((true, true) :: List.replicate 31 (true, false)).length = cfg.dataBits ∧
      (List.replicate 32 false).length = cfg.dataBits := by decide

/-- One state for each clause. -/
theorem wit_TransactionMakesItsFrame :
    cfg.accepted = true ∧
    ((starting [still]).transactor.tst = .idle ∧
      (starting [still]).transactorIn.startWrite = true ∧
      (starting [still]).transactorIn.startRead = false) ∧
    (({ starting [still] with
        dispatcher := { (starting []).dispatcher with swR := false, srR := true } } : State)
      |>.transactorIn.startRead) = true ∧
    (inFrame 0x77 .addr 6 false []).transactor.emitReq = true ∧
    (inFrame 0x72 .rdata 0 false []).transactor.decReq = true ∧
    (atFinish.transactor.tst ≠ .idle ∧ atFinish.transactor.issued = true ∧
      atFinish.transactorIn.eFinish = true) ∧
    (atBitFinish.transactor.issued = true ∧ atBitFinish.transactorIn.dFinish = true) ∧
    ((inSpace 1).transactor.tst ≠ .idle ∧ (inSpace 1).transactorIn.eFinish = false) := by decide

/-- A configuration that ticks in every cycle, with one millisecond for each attach phase. -/
def quick : Config :=
  { Config.source 1000 false with bitRateHz := 1000, attachHighMs := 1, attachLowMs := 1 }

/-- Runs of 0, 1 and 2 steps from reset, one for each clause. -/
theorem wit_AttachTimingFromReset :
    let v := (at_ .init 0 [still, still]).env
    quick.accepted = true ∧ (∀ k, k < 2 → (v.skip k).inputs.rst = false) ∧
      (isNext (Host.Core.run Sys2Proof.core 0 (State.resetWith quick v)) ∧
        0 * quick.msRateHz / quick.clkHz < quick.attachHighMs) ∧
      (isNext (Host.Core.run Sys2Proof.core 1 (State.resetWith quick v)) ∧
        quick.attachHighMs ≤ 1 * quick.msRateHz / quick.clkHz ∧
        1 * quick.msRateHz / quick.clkHz < quick.attachHighMs + quick.attachLowMs) ∧
      (isNext (Host.Core.run Sys2Proof.core 2 (State.resetWith quick v)) ∧
        quick.attachHighMs + quick.attachLowMs ≤ 2 * quick.msRateHz / quick.clkHz) := by
  decide

theorem wit_SilentTargetHoldsTheRead :
    CoreInv (inBitRead .setup [still, still]) ∧
      (inBitRead .setup [still, still]).decoder.dst = .setup ∧
      (∀ k, k < 2 → ((inBitRead .setup [still, still]).env.skip k).inputs.rst = false) ∧
      (∀ k, k < 2 → ((inBitRead .setup [still, still]).env.skip k).inputs.targetLow = false) ∧
      isNext (Host.Core.run Sys2Proof.core 2 (inBitRead .setup [still, still])) :=
  ⟨legal_setup, rfl, by decide, by decide, by decide⟩

theorem wit_TestIsAnsweredInThreeCycles :
    let s := at_ .waitCmd 0 [offer 0x3F, offer 0x3F, still]
    s.runs = true ∧ s.noConflict = true ∧ s.dispatcher.cst = .waitCmd ∧ s.rxOk = true ∧
      s.inputs.rxData = 0x3F#8 ∧ (∀ k, k < 3 → (s.env.skip k).inputs.rst = false) ∧
      (s.env.skip 1).inputs.rxReady = true ∧ (s.env.skip 1).inputs.rxData = 0x3F#8 ∧
      (s.env.skip 2).inputs.txReady = true := by decide

/-- The second clause's. -/
theorem wit_TestIsAnsweredInThreeCycles_end :
    let s := at_ .waitCmd 0 [offer 0x3F, offer 0x3F, still, still]
    s.runs = true ∧ s.noConflict = true ∧ s.rxOk = true ∧ s.inputs.rxData = 0x3F#8 ∧
      (s.env.skip 1).inputs.rxReady = true ∧ (s.env.skip 1).inputs.rxData = 0x3F#8 ∧
      (s.env.skip 2).inputs.txReady = true ∧ s.quiescent = true ∧
      (∀ k, k < 4 → (s.env.skip k).inputs.rst = false) ∧
      (s.env.skip 2).inputs.rxReady = false ∧ (s.env.skip 3).inputs.rxReady = false := by decide

end Sys2Proof.Tests
end

/-! SUPPORT. How a step ends in each of the ways its guards separate (spec rules R9, R273, R300,
R304), and the obligations on the scope of the model: which configurations have a meaning (R9, R10)
and what a step does where it runs no instruction. -/

namespace Sys2Proof.Machine

/-! ### A step, guard by guard -/

/-- R9, X5: a configuration that is not accepted has no step. -/
theorem step_of_not_accepted {s : State} (ha : s.cfg.accepted = false) :
    step s = .refused .configRefused := by
  simp [step, ha]

/-- R273, R300: with an accepted configuration, `rst` beats everything else. -/
theorem step_of_rst {s : State} (ha : s.cfg.accepted = true) (hr : s.inputs.rst = true) :
    step s = .next s.resetNow := by
  simp [step, ha, hr]

/-- R304, log entry 5: without `rst`, a link that breaks its contract has no step. -/
theorem step_of_link_broken {s : State} (ha : s.cfg.accepted = true) (hr : s.inputs.rst = false)
    (hl : s.linkKept = false) : step s = .refused .byteLinkBroken := by
  simp [step, ha, hr, hl]

/-- The three conditions of a cycle of the core (R9, R300, R304). -/
theorem State.runs_iff (s : State) :
    s.runs = true ↔ s.cfg.accepted = true ∧ s.inputs.rst = false ∧ s.linkKept = true := by
  simp [State.runs, and_assoc]

/-- In a cycle of the core the step is the fetched instruction's. -/
theorem step_of_fetch {s : State} {i : Instr} (h : s.runs = true) (hf : s.fetch = some i) :
    step s = exec i s := by
  obtain ⟨ha, hr, hl⟩ := s.runs_iff.mp h
  simp [step, ha, hr, hl, hf]

/-- In a cycle of the core that fetches nothing the step is the plain cycle (R112). -/
theorem step_of_no_fetch {s : State} (h : s.runs = true) (hf : s.fetch = none) :
    step s = s.cycle := by
  obtain ⟨ha, hr, hl⟩ := s.runs_iff.mp h
  simp [step, ha, hr, hl, hf]

/-- Nothing is fetched exactly when no port carries an instruction. -/
theorem State.fetch_eq_none_iff (s : State) : s.fetch = none ↔ ∀ p, s.carried p = none := by
  simp only [State.fetch, Option.or_eq_none_iff]
  constructor
  · rintro ⟨⟨⟨⟨hdec, hemit⟩, hstart⟩, hout⟩, hhost⟩ p
    cases p <;> assumption
  · intro h
    exact ⟨⟨⟨⟨h _, h _⟩, h _⟩, h _⟩, h _⟩

/-- No instruction's cycle is refused: it is a lockstep cycle (R112). -/
theorem exec_ne_refused (i : Instr) (s : State) (r : Refusal) : exec i s ≠ .refused r := by
  obtain ⟨p, d, e, b, h⟩ := exec_eq_lockstep i s
  rw [h]
  exact s.lockstep_ne_refused p d e b r

/-- A cycle of the core is never refused, whether its ports carry an instruction or not. -/
theorem step_ne_refused_of_runs {s : State} (h : s.runs = true) (r : Refusal) :
    step s ≠ .refused r := by
  cases hf : s.fetch with
  | none => rw [step_of_no_fetch h hf]; exact s.lockstep_ne_refused _ _ _ _ r
  | some i => rw [step_of_fetch h hf]; exact exec_ne_refused i s r

/-! ### The source's constants (R8, R9, R10) -/

/-- With the source's constants R10's relations and the register widths hold, and the larger rate of
R9 is `BIT_RATE_HZ`: the clock alone decides. -/
theorem Config.accepted_source_iff (clk : Nat) (power : Bool) :
    (Config.source clk power).accepted = true ↔ 8000000 ≤ clk := by
  have relations : (Config.source clk power).relationsOk = true := rfl
  have widths : (Config.source clk power).widthsOk = true := rfl
  have clock : (Config.source clk power).clockOk = true ↔ 1000 ≤ clk ∧ 8000000 ≤ clk := by
    simp only [Config.clockOk, Bool.and_eq_true, decide_eq_true_eq]
    simp [Config.source]
  rw [Config.accepted, relations, widths, Bool.and_true, Bool.and_true, clock]
  omega

/-! ### The two sides of the guard band (R246) -/

theorem classifyBit_eq_true_iff (c : Config) (n : BitVec 7) :
    classifyBit c n = true ↔ n.toNat ≤ c.decOneMaxTicks := decide_eq_true_iff

theorem classifyBit_eq_false_iff (c : Config) (n : BitVec 7) :
    classifyBit c n = false ↔ c.decOneMaxTicks < n.toNat := by
  simp [classifyBit]

theorem classifyError_eq_true_iff (c : Config) (n : BitVec 7) :
    classifyError c n = true ↔ n.toNat = c.decErrTicks := decide_eq_true_iff

theorem classifyError_eq_false_iff (c : Config) (n : BitVec 7) :
    classifyError c n = false ↔ n.toNat ≠ c.decErrTicks := decide_eq_false_iff_not

/-! ### The obligations -/

/-- Settles O12: the step's guards leave, where neither refuses, a reset or a cycle of the core, and
neither of these is refused. -/
theorem stepRefusesOnlyTheOutside : Obligations.StepRefusesOnlyTheOutside := by
  intro s r h
  cases ha : s.cfg.accepted with
  | false =>
    rw [step_of_not_accepted ha] at h
    cases h
    exact .inl ⟨rfl, rfl⟩
  | true =>
    cases hr : s.inputs.rst with
    | true =>
      rw [step_of_rst ha hr] at h
      cases h
    | false =>
      cases hl : s.linkKept with
      | false =>
        rw [step_of_link_broken ha hr hl] at h
        cases h
        exact .inr ⟨rfl, rfl, rfl⟩
      | true => exact absurd h (step_ne_refused_of_runs (s.runs_iff.mpr ⟨ha, hr, hl⟩) r)

/-- Settles O8: one guard of the step for each clause. -/
theorem stepAroundTheInstruction : Obligations.StepAroundTheInstruction := fun s =>
  ⟨step_of_not_accepted, step_of_rst, step_of_link_broken,
    fun hruns hnone => step_of_no_fetch hruns (s.fetch_eq_none_iff.mpr hnone)⟩

/-- Settles O11: with the source's constants the bound of R9 is 8 MHz. -/
theorem slowClocksAreRefused : Obligations.SlowClocksAreRefused := by
  intro clk power
  refine ⟨(Config.accepted_source_iff clk power).mpr, fun s hs hslow => step_of_not_accepted ?_⟩
  rw [hs, Bool.eq_false_iff, ne_eq, Config.accepted_source_iff]
  omega

/-- Settles O54: R10 orders the thresholds as `SPACE1_TICKS` < `DEC_ONE_MAX_TICKS` <
`SPACE0_TICKS` < `DEC_ERR_TICKS`, and each count named lies on its own side of them. -/
theorem shapesAreToldApart : Obligations.ShapesAreToldApart := by
  intro c n hc
  obtain ⟨-, -, err_eq, space1_lt, space0_gt, -⟩ := Config.accepted_bounds c hc
  have space0_lt_err : c.space0Ticks < c.decErrTicks := by omega
  simp only [classifyBit_eq_true_iff, classifyBit_eq_false_iff, classifyError_eq_true_iff,
    classifyError_eq_false_iff]
  exact ⟨fun _ => by omega, fun _ => by omega, fun _ _ => by omega,
    fun _ _ => by simp [Config.source], fun _ => by omega⟩

end Sys2Proof.Machine

/-! SUPPORT. What a cycle does to each component's registers and what it leaves alone (spec rules
R29, R112, R132 to R147, R172 to R183, R202 to R212, R242 to R247); the parts of the core's
invariant, each kept by a cycle for its own reason (R186, R218, R305 to R307); and the obligations
on the state of 10_state.md: reset, frames and invariant. -/

namespace Sys2Proof.Machine

/-! ### One cycle, whichever port carries the instruction (R110, R112) -/

/-- The start port carries an instruction exactly when one start register alone is 1 (R88). -/
theorem State.carried_transactorStart (s : State) :
    s.carried .transactorStart =
      if s.dispatcher.swR = true ∧ s.dispatcher.srR = false then
        some (.startWrite s.dispatcher.creg s.dispatcher.cwdata)
      else if s.dispatcher.swR = false ∧ s.dispatcher.srR = true then
        some (.startRead s.dispatcher.creg)
      else none := by
  cases hw : s.dispatcher.swR <;> cases hr : s.dispatcher.srR <;>
    simp [State.carried, State.portWord, decode?, decode, decodeStart, hw, hr]

/-- The emitter's port carries the symbol the transactor asks for (R89). -/
theorem State.carried_emitterRequest (s : State) :
    s.carried .emitterRequest =
      if s.transactor.emitReq then
        if s.transactor.emitKind = 0b00#2 then some .emitBit0
        else if s.transactor.emitKind = 0b01#2 then some .emitBit1
        else if s.transactor.emitKind = 0b10#2 then some .emitStart
        else some .emitStop
      else none := by
  simp only [State.carried, State.portWord, decode?, decode, decodeEmit, Option.bind_some]
  generalize s.transactor.emitReq = req
  generalize s.transactor.emitKind = kind
  revert req kind
  decide

/-- The decoder's port carries READ_BIT exactly when the transactor asks for a bit (R90). -/
theorem State.carried_decoderRequest (s : State) :
    s.carried .decoderRequest = if s.transactor.decReq then some .readBit else none := by
  cases h : s.transactor.decReq <;>
    simp [State.carried, State.portWord, decode?, decode, decodeDec, h]

/-- The output port carries the greeting exactly in INIT (R81, R133). -/
theorem State.carried_deviceOutput (s : State) :
    s.carried .deviceOutput = if s.dispatcher.cst = .init then some .greeting else none := by
  by_cases h : s.dispatcher.cst = .init <;>
    simp [State.carried, State.portWord, decode?, decode, decodeOutput, h]

/-- What the host port carries is the frame under execution. -/
theorem State.portWord_hostLink {s : State} {w : PortWord} (h : s.portWord .hostLink = some w) :
    w = .host s.frameBytes := by
  cases hc : s.dispatcher.cst <;> simp_all [State.portWord]

/-- The command on the host port takes the dispatcher where its own registers take it (log entry
6). -/
theorem exec_eq_cycle_of_hostLink {s : State} {i : Instr} (h : s.carried .hostLink = some i) :
    exec i s = s.cycle := by
  obtain ⟨w, hw, hi⟩ := Option.bind_eq_some_iff.mp h
  rw [State.portWord_hostLink hw, decode_frameBytes, Option.some.injEq] at hi
  subst hi
  simp only [State.cycle, State.dispatcherNext, Dispatcher.dispatchByCode]
  split_ifs <;> simp_all [exec, execTest, execPowerOn, execPowerOff, execWriteReg, execReadReg,
    execIgnored, State.hostCycle]

/-- Whichever port carries an instruction, its meaning is the plain cycle (R112, log entry 6). -/
theorem exec_eq_cycle_of_carried {s : State} {p : Port} {i : Instr}
    (h : s.carried p = some i) : exec i s = s.cycle := by
  cases p with
  | hostLink => exact exec_eq_cycle_of_hostLink h
  | deviceOutput =>
    rw [State.carried_deviceOutput] at h
    split_ifs at h with hc
    cases h
    simp [exec, execGreeting, State.hostCycle, State.cycle, State.dispatcherNext,
      State.dispatcherOn, Dispatcher.path, hc]
  | transactorStart =>
    rw [State.carried_transactorStart] at h
    split_ifs at h with hw hr <;> cases h
    · simp [exec, execStartWrite, State.cycle, State.transactorIn, hw]
    · simp [exec, execStartRead, State.cycle, State.transactorIn, hr]
  | emitterRequest =>
    rw [State.carried_emitterRequest] at h
    split_ifs at h with req bit0 bit1 start <;> cases h <;>
      simp [exec, execEmitBit0, execEmitBit1, execEmitStart, execEmitStop, State.emitterCycle,
        State.cycle, State.emitterNext, *]
  | decoderRequest =>
    rw [State.carried_decoderRequest] at h
    split_ifs at h with req
    cases h
    simp [exec, execReadBit, State.cycle, State.decoderNext, req]

/-- An instruction is fetched from one of the ports. -/
theorem State.exists_carried_of_fetch {s : State} {i : Instr} (h : s.fetch = some i) :
    ∃ p, s.carried p = some i := by
  simp only [State.fetch, Option.or_eq_some_iff] at h
  obtain ((((h | ⟨-, h⟩) | ⟨-, h⟩) | ⟨-, h⟩) | ⟨-, h⟩) := h <;> exact ⟨_, h⟩

/-- In a cycle of the core the step is the plain cycle, whatever is fetched (R112). -/
theorem step_of_runs {s : State} (h : s.runs = true) : step s = s.cycle := by
  cases hf : s.fetch with
  | none => exact step_of_no_fetch h hf
  | some i =>
    obtain ⟨p, hp⟩ := State.exists_carried_of_fetch hf
    rw [step_of_fetch h hf, exec_eq_cycle_of_carried hp]

/-- The state after the plain cycle. -/
def State.afterCycle (s : State) : State :=
  s.advanced s.dispatcherNext (s.transactor.next s.cfg s.transactorIn) s.emitterNext s.decoderNext

/-- A cycle that answers a next state answers this one. -/
theorem State.cycle_next {s t : State} (h : s.cycle = .next t) : t = s.afterCycle :=
  ((s.lockstep_eq_next_iff t _ _ _ _).mp h).2

/-- A step that answers a next state is a reset or, without `rst`, a whole lockstep cycle. -/
theorem step_next_reset_or_cycle {s t : State} (h : step s = .next t) :
    (s.inputs.rst = true ∧ t = s.resetNow) ∨ (s.inputs.rst = false ∧ t = s.afterCycle) := by
  obtain ⟨ha, ⟨hr, ht⟩ | ⟨hr, hl, -⟩⟩ := step_next_cases h
  · exact .inl ⟨hr, ht⟩
  · rw [step_of_runs (s.runs_iff.mpr ⟨ha, hr, hl⟩)] at h
    exact .inr ⟨hr, State.cycle_next h⟩

/-! ### The dispatcher's next registers, state by state (R133 to R147) -/

section

variable {s : State}

theorem State.dispatcherNext_of_init (h : s.dispatcher.cst = .init) :
    s.dispatcherNext = s.dispatcher.greet s.cfg s.dispatcherIn := by
  simp [State.dispatcherNext, State.dispatcherOn, Dispatcher.path, h]

theorem State.dispatcherNext_of_waitCmd (h : s.dispatcher.cst = .waitCmd) :
    s.dispatcherNext = s.dispatcher.takeCommand s.dispatcherIn s.inputs.rxData := by
  simp [State.dispatcherNext, State.dispatcherOn, Dispatcher.path, State.commandByte, h]

theorem State.dispatcherNext_of_dispatch (h : s.dispatcher.cst = .dispatch) :
    s.dispatcherNext = s.dispatcher.dispatchByCode s.dispatcher.cmd := by
  simp [State.dispatcherNext, State.dispatcherOn, Dispatcher.path, State.commandByte, h]

theorem State.dispatcherNext_of_recvReg (h : s.dispatcher.cst = .recvReg) :
    s.dispatcherNext = s.dispatcher.takeRegister s.dispatcherIn (s.dispatcher.cmd == codeWriteReg)
      (regOfByte s.cfg s.inputs.rxData) := by
  simp [State.dispatcherNext, State.dispatcherOn, Dispatcher.path, State.commandByte,
    State.registerByte, h]

theorem State.dispatcherNext_of_recvData (h : s.dispatcher.cst = .recvData) :
    s.dispatcherNext = s.dispatcher.takeData s.dispatcherIn s.inputs.rxData := by
  simp [State.dispatcherNext, State.dispatcherOn, Dispatcher.path, State.frameData, h]

theorem State.dispatcherNext_of_startTx (h : s.dispatcher.cst = .startTx) :
    s.dispatcherNext = s.dispatcher.startTx (s.dispatcher.cmd == codeWriteReg) := by
  simp [State.dispatcherNext, State.dispatcherOn, Dispatcher.path, State.commandByte, h]

theorem State.dispatcherNext_of_waitDone (h : s.dispatcher.cst = .waitDone) :
    s.dispatcherNext =
      s.dispatcher.waitDone s.dispatcherIn (s.dispatcher.cmd == codeWriteReg) := by
  simp [State.dispatcherNext, State.dispatcherOn, Dispatcher.path, State.commandByte, h]

theorem State.dispatcherNext_of_sendData (h : s.dispatcher.cst = .sendData) :
    s.dispatcherNext = s.dispatcher.sendData s.dispatcherIn := by
  simp [State.dispatcherNext, State.dispatcherOn, Dispatcher.path, h]

theorem State.dispatcherNext_of_sendAck (h : s.dispatcher.cst = .sendAck) :
    s.dispatcherNext = s.dispatcher.sendAck s.cfg s.dispatcherIn := by
  simp [State.dispatcherNext, State.dispatcherOn, Dispatcher.path, h]

/-- Until `t_done` the dispatcher only ends its pulses in WAIT_DONE (R145). -/
theorem State.dispatcherNext_of_waiting (h : s.dispatcher.cst = .waitDone)
    (hd : s.transactor.tdone = false) : s.dispatcherNext = s.dispatcher.quiet := by
  simp [State.dispatcherNext_of_waitDone h, Dispatcher.waitDone, State.dispatcherIn, hd]

end

/-! ### What a cycle can change: the frames (R29) -/

/-- What a cycle can change of the dispatcher: each register only in the states whose rule assigns
it (R132 to R147). -/
structure Dispatcher.Frame (d d' : Dispatcher) : Prop where
  cmd : d.cst ≠ .waitCmd → d'.cmd = d.cmd
  power : d.cst ≠ .dispatch → d'.power = d.power
  creg : d.cst ≠ .recvReg → d'.creg = d.creg
  cwdata : d.cst ≠ .recvData → d'.cwdata = d.cwdata
  crdata : d.cst ≠ .waitDone → d'.crdata = d.crdata
  cidx : d.cst ≠ .recvReg → d.cst ≠ .recvData → d.cst ≠ .waitDone → d.cst ≠ .sendData →
    d'.cidx = d.cidx
  txDataR : d.cst ≠ .init → d.cst ≠ .sendData → d.cst ≠ .sendAck → d'.txDataR = d.txDataR
  starts : d.cst ≠ .startTx → d'.swR = false ∧ d'.srR = false

/-- Every effect of DISPATCH leaves the data registers alone and ends the pulses (R135). -/
theorem Dispatcher.Dispatched.frame {d x : Dispatcher} (hx : d.Dispatched x)
    (hc : d.cst = .dispatch) : d.Frame x := by
  rcases hx with rfl | rfl | rfl | rfl | rfl | rfl <;>
    constructor <;> simp [hc, dispatchTest, dispatchPowerOn, dispatchPowerOff, dispatchWriteReg,
      dispatchReadReg, dispatchIgnored]

/-- The path of every command keeps to the dispatcher's frame. -/
theorem Dispatcher.path_frame (d : Dispatcher) (c : Config) (p : DispatcherIn) (code : Byte)
    (reg : Addr) (data : Data) {x : Dispatcher} (hx : d.Dispatched x) :
    d.Frame (d.path c p code reg data x) := by
  cases hc : d.cst <;> simp only [path, hc]
  case dispatch => exact hx.frame hc
  case init => unfold greet; split_ifs <;> constructor <;> simp [hc]
  case waitCmd => unfold takeCommand; split_ifs <;> constructor <;> simp [hc]
  case recvReg => unfold takeRegister; split_ifs <;> constructor <;> simp [hc]
  case recvData => unfold takeData; split_ifs <;> constructor <;> simp [hc]
  case startTx => unfold startTx; constructor <;> simp [hc]
  case waitDone => unfold waitDone; split_ifs <;> constructor <;> simp [hc]
  case sendData => unfold sendData; split_ifs <;> constructor <;> simp [hc]
  case sendAck => unfold sendAck; split_ifs <;> constructor <;> simp [hc]

/-- The dispatcher's own step keeps to its frame. -/
theorem State.dispatcherNext_frame (s : State) : s.dispatcher.Frame s.dispatcherNext :=
  s.dispatcher.path_frame _ _ _ _ _ (s.dispatcher.dispatchByCode_cases _)

/-- DISPATCH sets and clears `power` for the two power commands alone (R135 to R137). -/
theorem Dispatcher.dispatchByCode_power (d : Dispatcher) (code : Byte) :
    (d.dispatchByCode code).power =
      if code = codePowerOn then true else if code = codePowerOff then false else d.power := by
  unfold dispatchByCode
  by_cases test : code = codeTest
  · subst test
    rfl
  · simp only [if_neg test]
    split_ifs <;> rfl

/-! #### The transactor (R172 to R183) -/

/-- The `finish` the transactor waits for: `d_finish` in RDATA, `e_finish` elsewhere (R177). -/
def Transactor.finishSeen (t : Transactor) (p : TransactorIn) : Bool :=
  if t.tst = .rdata then p.dFinish else p.eFinish

/-- What that pulse makes of the transactor, state by state (R178 to R183). -/
def Transactor.advance (c : Config) (p : TransactorIn) (t : Transactor) : Transactor :=
  match t.tst with
  | .idle => t.quiet
  | .start => t.afterStart c
  | .addr => t.afterAddr
  | .dir => t.afterDir c
  | .wdata => t.afterWdata
  | .rdata => t.afterRdata c p.dBit p.dError
  | .stop => t.afterStop

section

variable {c : Config} {p : TransactorIn} {t : Transactor}

/-- In a frame every state issues its request and waits (R177). -/
theorem Transactor.next_of_ne_idle (h : t.tst ≠ .idle) :
    t.next c p = t.issueAndWait (t.finishSeen p) (t.advance c p) := by
  cases ht : t.tst <;> simp_all [next, finishSeen, advance]

theorem Transactor.next_of_request (h : t.tst ≠ .idle) (hi : t.issued = false) :
    t.next c p = { t.quiet with issued := true } := by
  simp [next_of_ne_idle h, issueAndWait, hi]

theorem Transactor.next_of_waiting (h : t.tst ≠ .idle) (hi : t.issued = true)
    (hf : t.finishSeen p = false) : t.next c p = t.quiet := by
  simp [next_of_ne_idle h, issueAndWait, hi, hf]

theorem Transactor.next_of_finish (h : t.tst ≠ .idle) (hi : t.issued = true)
    (hf : t.finishSeen p = true) : t.next c p = t.advance c p := by
  simp [next_of_ne_idle h, issueAndWait, hi, hf]

theorem Transactor.next_of_no_start (h : t.tst = .idle) (hw : p.startWrite = false)
    (hr : p.startRead = false) : t.next c p = t.quiet := by
  simp [next, h, idle, hw, hr]

theorem Transactor.next_of_startWrite (h : t.tst = .idle) (hw : p.startWrite = true)
    (hr : p.startRead = false) : t.next c p = t.acceptWrite p.regOut p.wdataOut := by
  simp [next, h, idle, hw, hr]

theorem Transactor.next_of_startRead (h : t.tst = .idle) (hw : p.startWrite = false)
    (hr : p.startRead = true) : t.next c p = t.acceptRead p.regOut := by
  simp [next, h, idle, hw, hr]

/-- What a cycle can do to the transactor: end its pulse, accept a start, issue the request of its
state, or advance at the `finish` it waits for. -/
theorem Transactor.next_cases (c : Config) (p : TransactorIn) (t : Transactor) :
    t.next c p = t.quiet ∨
      (t.tst = .idle ∧
        (t.next c p = t.acceptWrite p.regOut p.wdataOut ∨ t.next c p = t.acceptRead p.regOut)) ∨
      (t.tst ≠ .idle ∧ t.issued = false ∧ t.next c p = { t.quiet with issued := true }) ∨
      (t.tst ≠ .idle ∧ t.issued = true ∧ t.finishSeen p = true ∧
        t.next c p = t.advance c p) := by
  by_cases h : t.tst = .idle
  · simp only [next, h, idle]
    split_ifs <;> simp
  · cases hi : t.issued
    · exact .inr (.inr (.inl ⟨h, rfl, next_of_request h hi⟩))
    · cases hf : t.finishSeen p
      · exact .inl (next_of_waiting h hi hf)
      · exact .inr (.inr (.inr ⟨h, rfl, rfl, next_of_finish h hi hf⟩))

/-- An advance keeps the operation and its operands; outside RDATA also the word read (R182). -/
theorem Transactor.advance_frame (c : Config) (p : TransactorIn) (t : Transactor) :
    (t.advance c p).op = t.op ∧ (t.advance c p).treg = t.treg ∧
      (t.advance c p).twdata = t.twdata ∧
      (t.tst ≠ .rdata → (t.advance c p).rshift = t.rshift ∧ (t.advance c p).rerr = t.rerr) := by
  cases ht : t.tst <;> simp only [advance, ht]
  case addr => unfold afterAddr; split_ifs <;> simp
  case wdata => unfold afterWdata; split_ifs <;> simp
  all_goals simp [afterStart, afterDir, afterRdata, afterStop]

end

/-! #### The emitter and the decoder (R202 to R212, R242 to R247) -/

/-- What a cycle can change of the emitter (R202 to R212). -/
structure BitEmitter.Frame (e e' : BitEmitter) : Prop where
  msCnt : e.est ≠ .attachHigh → e.est ≠ .attachLow → e'.msCnt = e.msCnt
  bcnt : e.ready = false → e'.bcnt = e.bcnt
  efin : e.est ≠ .mark → e.est ≠ .stop → e'.efin = false

/-- What a cycle can change of the decoder (R242 to R247). -/
structure BitDecoder.Frame (b b' : BitDecoder) : Prop where
  dcnt : b.dst ≠ .idle → b.dst ≠ .capture → b'.dcnt = b.dcnt
  verdict : b.dst ≠ .finish → b'.dbit = b.dbit ∧ b'.derr = b.derr
  mcnt : b.dst ≠ .finish → b.dst ≠ .waitMark → b'.mcnt = b.mcnt
  dfin : b.dst ≠ .waitMark → b'.dfin = false

theorem BitEmitter.phase_frame (c : Config) (m k : Bool) (e : BitEmitter) :
    e.Frame (e.phase c m k) := by
  cases he : e.est <;> simp only [phase, he]
  case attachHigh => unfold attachHigh; split_ifs <;> constructor <;> simp [he]
  case attachLow => unfold attachLow; split_ifs <;> constructor <;> simp [he]
  case idle => constructor <;> simp
  case space => unfold space; split_ifs <;> constructor <;> simp [he, ready]
  case mark => unfold mark; split_ifs <;> constructor <;> simp [he, ready]
  case stop => unfold stop; split_ifs <;> constructor <;> simp [he, ready]

/-- In IDLE an accepted request loads `bcnt` and nothing else that IDLE does not assign (R205). -/
theorem BitEmitter.Accepted.frame {c : Config} {e a : BitEmitter} (h : e.Accepted c a)
    (he : e.est = .idle) : e.Frame a := by
  rcases h with rfl | rfl | rfl | rfl <;> constructor <;>
    simp [he, ready, acceptBit0, acceptBit1, acceptStart, acceptStop]

theorem State.emitterNext_frame (s : State) : s.emitter.Frame s.emitterNext := by
  obtain e | ⟨he, ha⟩ := s.emitterNext_cases
  · exact e ▸ BitEmitter.phase_frame _ _ _ _
  · exact ha.frame he

theorem State.emitterOn_frame {s : State} {a : BitEmitter} (ha : s.emitter.Accepted s.cfg a) :
    s.emitter.Frame (s.emitterOn a) := by
  obtain e | ⟨he, e⟩ := s.emitterOn_cases a <;> rw [e]
  · exact BitEmitter.phase_frame _ _ _ _
  · exact ha.frame he

theorem BitDecoder.phase_frame (c : Config) (w k : Bool) (b : BitDecoder) :
    b.Frame (b.phase c w k) := by
  cases hb : b.dst <;> simp only [phase, hb]
  case idle => constructor <;> simp
  case setup => unfold setup; split_ifs <;> constructor <;> simp
  case capture => unfold capture; split_ifs <;> constructor <;> simp [hb]
  case finish => unfold classify; constructor <;> simp [hb]
  case waitMark => unfold waitMark; split_ifs <;> constructor <;> simp [hb]

/-- In IDLE an accepted bit read clears `dcnt` and leaves the last bit's verdict alone (R243). -/
theorem BitDecoder.acceptRead_frame {b : BitDecoder} (hb : b.dst = .idle) (w : Bool) :
    b.Frame (b.acceptRead w) := by
  constructor <;> simp [hb, acceptRead]

theorem State.decoderOn_frame (s : State) :
    s.decoder.Frame (s.decoderOn (s.decoder.acceptRead s.swioIn)) := by
  obtain e | ⟨hb, e⟩ := s.decoderOn_cases (s.decoder.acceptRead s.swioIn) <;> rw [e]
  · exact BitDecoder.phase_frame _ _ _ _
  · exact BitDecoder.acceptRead_frame hb _

theorem State.decoderNext_frame (s : State) : s.decoder.Frame s.decoderNext := by
  obtain e | ⟨hb, e⟩ := s.decoderNext_cases <;> rw [e]
  · exact BitDecoder.phase_frame _ _ _ _
  · exact BitDecoder.acceptRead_frame hb _

/-! ### The parts of the core's invariant

`CoreInv` speaks of each component alone and of three pairs of components. A part of it is a
predicate of the registers it speaks of, kept by a cycle for its own reason. -/

/-- The transactor's registers are legal: operands and counts of the build's widths, and each data
state in its own kind of frame (R25, R170). -/
structure Transactor.Legal (c : Config) (t : Transactor) : Prop where
  treg_lt : t.treg.toNat < 2 ^ c.addrBits
  rshift_lt : t.rshift.toNat < 2 ^ c.dataBits
  wdata_op : t.tst = .wdata → t.op = true
  rdata_op : t.tst = .rdata → t.op = false
  idle_issued : t.tst = .idle → t.issued = false
  addr_idx : t.tst = .addr → t.idx.toNat < c.addrBits
  data_idx : t.tst = .wdata ∨ t.tst = .rdata → t.idx.toNat < c.dataBits
  other_idx : t.tst ≠ .addr → t.tst ≠ .wdata → t.tst ≠ .rdata → t.idx = 0

/-- The dispatcher's registers are legal: operands of the build's widths, at most one start pulse,
and each state on the path of a command that has it (R26 to R28, R136 to R141). -/
structure Dispatcher.Legal (c : Config) (d : Dispatcher) : Prop where
  creg_lt : d.creg.toNat < 2 ^ c.addrBits
  crdata_lt : d.crdata.toNat < 2 ^ c.dataBits
  oneStart : d.swR = true → d.srR = false
  writeStart : d.swR = true → d.cmd = codeWriteReg
  readStart : d.srR = true → d.cmd = codeReadReg
  registerCommand : d.cst = .recvReg ∨ d.cst = .startTx ∨ d.cst = .waitDone →
    d.cmd = codeWriteReg ∨ d.cmd = codeReadReg
  dataCommand : d.cst = .recvData → d.cmd = codeWriteReg
  resultCommand : d.cst = .sendData → d.cmd = codeReadReg
  ackCommand : d.cst = .sendAck → isCommandCode d.cmd = true

/-- The dispatcher waits exactly for the transaction it started, which runs on the command's own
operands (R144, R145, R307). -/
structure CommandLink (d : Dispatcher) (t : Transactor) : Prop where
  startPulse : (d.swR || d.srR) = true → d.cst = .waitDone ∧ t.tst = .idle ∧ t.tdone = false
  busyWaits : t.tst ≠ .idle → d.cst = .waitDone
  donePulse : t.tdone = true → d.cst = .waitDone ∧ t.tst = .idle
  waitHasCause : d.cst = .waitDone → (d.swR || d.srR) = true ∨ t.tst ≠ .idle ∨ t.tdone = true
  frameOperands : t.tst ≠ .idle → t.op = (d.cmd == codeWriteReg) ∧ t.treg = d.creg ∧
    (t.op = true → t.twdata = d.cwdata)

/-- A symbol is on the line exactly while the transactor waits for it (R186, R218, R305). -/
structure SymbolLink (t : Transactor) (e : BitEmitter) : Prop where
  symbolWanted : e.inSymbol = true → t.emitting = true ∧ t.issued = true
  finishWanted : e.efin = true → e.est = .idle ∧ t.emitting = true ∧ t.issued = true
  symbolComes : t.emitting = true → t.issued = true → e.inSymbol = true ∨ e.efin = true
  stopSymbol : e.est = .stop → t.tst = .stop
  bitSymbol : e.est = .space ∨ e.est = .mark → t.tst ≠ .stop

/-- A bit read is under way exactly while the transactor waits for it (R186, R305). -/
structure BitReadLink (t : Transactor) (b : BitDecoder) : Prop where
  bitReadWanted : b.dst ≠ .idle → t.tst = .rdata ∧ t.issued = true ∧ b.dfin = false
  bitReadDone : b.dfin = true → b.dst = .idle ∧ t.tst = .rdata ∧ t.issued = true
  bitReadComes : t.tst = .rdata → t.issued = true → b.dst ≠ .idle ∨ b.dfin = true

section

variable {s : State}

theorem CoreInv.transactorLegal (h : CoreInv s) : s.transactor.Legal s.cfg :=
  ⟨h.addrWidth.2, h.dataWidth.1, h.frameWrites, h.frameReads, h.idleNotIssued, h.addrIndex,
    h.dataIndex, h.otherIndex⟩

theorem CoreInv.dispatcherLegal (h : CoreInv s) : s.dispatcher.Legal s.cfg :=
  ⟨h.addrWidth.1, h.dataWidth.2, h.oneStart, h.writeStart, h.readStart, h.registerCommand,
    h.dataCommand, h.resultCommand, h.ackCommand⟩

theorem CoreInv.commandLink (h : CoreInv s) : CommandLink s.dispatcher s.transactor :=
  ⟨h.startPulse, h.busyWaits, h.donePulse, h.waitHasCause, h.frameOperands⟩

theorem CoreInv.symbolLink (h : CoreInv s) : SymbolLink s.transactor s.emitter :=
  ⟨h.symbolWanted, h.finishWanted, h.symbolComes, h.stopSymbol, h.bitSymbol⟩

theorem CoreInv.bitReadLink (h : CoreInv s) : BitReadLink s.transactor s.decoder :=
  ⟨h.bitReadWanted, h.bitReadDone, h.bitReadComes⟩

/-- The parts make the whole. -/
theorem CoreInv.of_parts (accepted : s.cfg.accepted = true) (ems : s.ems.acc < s.cfg.clkHz)
    (ebt : s.ebt.acc < s.cfg.clkHz) (dbt : s.dbt = s.ebt) (emitter : s.emitter.CountsOk s.cfg)
    (decoder : s.decoder.CountsOk s.cfg) (transactor : s.transactor.Legal s.cfg)
    (dispatcher : s.dispatcher.Legal s.cfg)
    (attach : s.emitter.ready = false → s.dispatcher.cst = .init)
    (command : CommandLink s.dispatcher s.transactor)
    (symbol : SymbolLink s.transactor s.emitter)
    (bitRead : BitReadLink s.transactor s.decoder) : CoreInv s := by
  obtain ⟨e1, e2, e3, e4, e5⟩ := emitter
  obtain ⟨b1, b2, b3, b4⟩ := decoder
  exact { transactor, dispatcher, command, symbol, bitRead with
    accepted, emsBound := ems, ebtBound := ebt, sameBitTicks := dbt,
    attachHighCount := e1, attachLowCount := e2, spaceCount := e3, markCount := e4, stopCount := e5,
    lowCount := b1, captureCount := b2, setupCount := b3, waitMarkCount := b4,
    addrWidth := ⟨dispatcher.creg_lt, transactor.treg_lt⟩,
    dataWidth := ⟨transactor.rshift_lt, dispatcher.crdata_lt⟩,
    attachInInit := attach,
    frameWrites := transactor.wdata_op, frameReads := transactor.rdata_op,
    idleNotIssued := transactor.idle_issued, addrIndex := transactor.addr_idx,
    dataIndex := transactor.data_idx, otherIndex := transactor.other_idx }

end

/-! #### Reset -/

/-- The reset state is legal: the attach counter is loaded with a duration that fits, the tick
sources stand at 0, and everything else is at rest (R35, R300). -/
theorem CoreInv.resetWith {c : Config} (hc : c.accepted = true) (env : Env) :
    CoreInv (State.resetWith c env) := by
  obtain ⟨⟨ms1, ms2⟩, -, -, -, -, ⟨high1, high2⟩, -⟩ := Config.accepted_bounds c hc
  have clk : 0 < c.clkHz := by omega
  have high : (BitVec.ofNat 5 c.attachHighMs).toNat = c.attachHighMs := toNat_ofNat_of_lt high2
  apply CoreInv.of_parts
  case accepted => exact hc
  case ems => exact clk
  case ebt => exact clk
  case dbt => rfl
  case emitter => simp [BitEmitter.CountsOk, BitEmitter.reset, high, countsDown, high1]
  case decoder => simp [BitDecoder.CountsOk, BitDecoder.reset]
  case transactor => constructor <;> simp [Transactor.reset]
  case dispatcher => constructor <;> simp [Dispatcher.reset]
  case attach => exact fun _ => rfl
  case command => constructor <;> simp [Dispatcher.reset, Transactor.reset]
  case symbol =>
    constructor <;> simp [BitEmitter.reset, BitEmitter.inSymbol, Transactor.reset]
  case bitRead => constructor <;> simp [BitDecoder.reset, Transactor.reset]

/-! #### The transactor's registers -/

/-- A bit index above 0 goes down and stays within its word. -/
theorem toNat_pred_lt {v : BitVec 5} {n : Nat} (h : v.toNat < n) (hv : v ≠ 0) :
    (v - 1#5).toNat < n := by
  bv_omega

/-- The top bit's index of a word of `n` bits. -/
theorem toNat_topIndex_lt {n : Nat} (h1 : 1 ≤ n) (h : n ≤ 32) :
    (BitVec.ofNat 5 (n - 1)).toNat < n := by
  rw [toNat_ofNat_of_lt (by omega)]
  omega

theorem Transactor.Legal.advance {c : Config} (hc : c.accepted = true) {t : Transactor}
    (h : t.Legal c) (ht : t.tst ≠ .idle) (p : TransactorIn) : (t.advance c p).Legal c := by
  obtain ⟨-, -, -, -, -, -, -, -, -, -, -, -, -, ⟨addr1, addr7⟩, ⟨data1, data32⟩⟩ :=
    Config.accepted_bounds c hc
  have topAddr := toNat_topIndex_lt addr1 (by omega)
  have topData := toNat_topIndex_lt data1 data32
  obtain ⟨treg, rshift, wdata, rdata, -, addr, data, other⟩ := h
  have shifted := toNat_shiftIn_lt c t.rshift p.dBit
  cases hs : t.tst <;> simp only [Transactor.advance, hs]
  case idle => exact absurd hs ht
  case start => constructor <;> simp [afterStart, treg, rshift, topAddr, -BitVec.toNat_ofNat]
  case addr =>
    unfold afterAddr
    split_ifs with h0
    · constructor <;> simp [treg, rshift, h0]
    · constructor <;> simp [treg, rshift, hs, toNat_pred_lt (addr hs) h0, -BitVec.toNat_sub]
  case dir =>
    cases hop : t.op <;> constructor <;>
      simp [afterDir, treg, rshift, hop, topData, -BitVec.toNat_ofNat]
  case wdata =>
    unfold afterWdata
    split_ifs with h0
    · constructor <;> simp [treg, rshift, h0]
    · constructor <;>
        simp [treg, rshift, hs, wdata hs, toNat_pred_lt (data (.inl hs)) h0, -BitVec.toNat_sub]
  case rdata =>
    unfold afterRdata
    split_ifs with h0
    · constructor <;> simp [treg, shifted, h0]
    · constructor <;>
        simp [treg, shifted, rdata hs, toNat_pred_lt (data (.inr hs)) h0, -BitVec.toNat_sub]
  case stop => constructor <;> simp [afterStop, treg, rshift]

/-- A cycle keeps the transactor's registers legal, when the address offered is one. -/
theorem Transactor.Legal.next {c : Config} (hc : c.accepted = true) {t : Transactor}
    (h : t.Legal c) {p : TransactorIn} (hp : p.regOut.toNat < 2 ^ c.addrBits) :
    (t.next c p).Legal c := by
  have quiet : t.quiet.Legal c := { h with }
  obtain e | ⟨hidle, e | e⟩ | ⟨hne, -, e⟩ | ⟨hne, -, -, e⟩ := t.next_cases c p <;> rw [e]
  · exact quiet
  · have idx : t.idx = 0 := h.other_idx (by simp [hidle]) (by simp [hidle]) (by simp [hidle])
    constructor <;> simp [acceptWrite, hp, h.rshift_lt, idx]
  · have idx : t.idx = 0 := h.other_idx (by simp [hidle]) (by simp [hidle]) (by simp [hidle])
    constructor <;> simp [acceptRead, hp, h.rshift_lt, idx]
  · exact { quiet with idle_issued := fun hi => absurd hi hne }
  · exact h.advance hc hne p

/-! #### The dispatcher's registers -/

/-- A read is no write (R82). -/
@[simp] theorem codeReadReg_beq_codeWriteReg : (codeReadReg == codeWriteReg) = false := rfl

/-- Ending the pulses keeps the dispatcher's registers legal. -/
theorem Dispatcher.Legal.quiet {c : Config} {d : Dispatcher} (h : d.Legal c) :
    d.quiet.Legal c :=
  { h with oneStart := by simp, writeStart := by simp, readStart := by simp }

theorem Dispatcher.Legal.dispatchByCode {c : Config} {d : Dispatcher} (h : d.Legal c) :
    (d.dispatchByCode d.cmd).Legal c := by
  obtain ⟨creg, crdata, -⟩ := h
  unfold Dispatcher.dispatchByCode
  split_ifs with test on off write read <;> constructor <;>
    simp_all [dispatchTest, dispatchPowerOn, dispatchPowerOff, dispatchWriteReg, dispatchReadReg,
      dispatchIgnored, isCommandCode]

/-- A cycle keeps the dispatcher's registers legal, when the data read are. -/
theorem State.dispatcherNext_legal {s : State} (h : s.dispatcher.Legal s.cfg)
    (hr : s.transactor.rshift.toNat < 2 ^ s.cfg.dataBits) : s.dispatcherNext.Legal s.cfg := by
  have creg := h.creg_lt
  have crdata := h.crdata_lt
  have quiet := h.quiet
  cases hc : s.dispatcher.cst
  case init =>
    rw [State.dispatcherNext_of_init hc, Dispatcher.greet]
    split_ifs
    · constructor <;> simp [creg, crdata]
    · exact quiet
  case waitCmd =>
    rw [State.dispatcherNext_of_waitCmd hc, Dispatcher.takeCommand]
    split_ifs
    · constructor <;> simp [creg, crdata]
    · exact quiet
  case dispatch =>
    rw [State.dispatcherNext_of_dispatch hc]
    exact h.dispatchByCode
  case recvReg =>
    have reg := toNat_regOfByte_lt s.cfg s.inputs.rxData
    have read := (h.registerCommand (.inl hc)).resolve_left
    rw [State.dispatcherNext_of_recvReg hc, Dispatcher.takeRegister]
    split_ifs with rx write
    · constructor <;> simp_all
    · constructor <;> simp_all
    · exact quiet
  case recvData =>
    have cmd := h.dataCommand hc
    rw [State.dispatcherNext_of_recvData hc, Dispatcher.takeData]
    split_ifs
    · constructor <;> simp [creg, crdata, cmd]
    · constructor <;> simp [creg, crdata, cmd]
    · exact quiet
  case startTx =>
    rw [State.dispatcherNext_of_startTx hc, Dispatcher.startTx]
    obtain cmd | cmd := h.registerCommand (.inr (.inl hc)) <;> constructor <;>
      simp [creg, crdata, cmd]
  case waitDone =>
    rw [State.dispatcherNext_of_waitDone hc, Dispatcher.waitDone]
    have cmd := h.registerCommand (.inr (.inr hc))
    split_ifs with done write
    · constructor <;> simp_all [isCommandCode]
    · constructor <;> simp_all [State.dispatcherIn]
    · exact quiet
  case sendData =>
    have cmd := h.resultCommand hc
    rw [State.dispatcherNext_of_sendData hc, Dispatcher.sendData]
    split_ifs
    · constructor <;> simp [creg, crdata, cmd, isCommandCode]
    · constructor <;> simp [creg, crdata, cmd]
    · exact quiet
  case sendAck =>
    rw [State.dispatcherNext_of_sendAck hc, Dispatcher.sendAck]
    split_ifs
    · constructor <;> simp [creg, crdata]
    · exact quiet

/-! #### The dispatcher and the transactor (R307) -/

/-- An advance ends the frame with `t_done` or goes on with it, and the next request is not yet made
(R177 to R183). -/
theorem Transactor.advance_cases (c : Config) (p : TransactorIn) {t : Transactor}
    (ht : t.tst ≠ .idle) :
    (t.advance c p).issued = false ∧
      (((t.advance c p).tst ≠ .idle ∧ (t.advance c p).tdone = false) ∨
        ((t.advance c p).tst = .idle ∧ (t.advance c p).tdone = true)) := by
  cases hs : t.tst <;> simp only [advance, hs]
  case idle => exact absurd hs ht
  case start => simp [afterStart]
  case addr => unfold afterAddr; split_ifs <;> simp [hs]
  case dir => cases hop : t.op <;> simp [afterDir, hop]
  case wdata => unfold afterWdata; split_ifs <;> simp [hs]
  case rdata => unfold afterRdata; split_ifs <;> simp
  case stop => simp [afterStop]

/-- In a frame a cycle keeps the operation and its operands, and gives `t_done` exactly when it ends
the frame. -/
theorem Transactor.next_busy_facts (c : Config) (p : TransactorIn) {t : Transactor}
    (ht : t.tst ≠ .idle) :
    (t.next c p).op = t.op ∧ (t.next c p).treg = t.treg ∧ (t.next c p).twdata = t.twdata ∧
      (((t.next c p).tst ≠ .idle ∧ (t.next c p).tdone = false) ∨
        ((t.next c p).tst = .idle ∧ (t.next c p).tdone = true)) := by
  obtain e | ⟨hidle, -⟩ | ⟨-, -, e⟩ | ⟨-, -, -, e⟩ := t.next_cases c p
  · simp [e, ht]
  · exact absurd hidle ht
  · simp [e, ht]
  · obtain ⟨hop, htreg, htwdata, -⟩ := t.advance_frame c p
    rw [e]
    exact ⟨hop, htreg, htwdata, (advance_cases c p ht).2⟩

/-- A request is made only in the state the transactor was in: a state it enters has none made. -/
theorem Transactor.next_issued_of_tst_ne {c : Config} {p : TransactorIn} {t : Transactor}
    (h : (t.next c p).tst ≠ t.tst) : (t.next c p).issued = false := by
  obtain e | ⟨-, e | e⟩ | ⟨-, -, e⟩ | ⟨hne, -, -, e⟩ := t.next_cases c p <;> rw [e] at h ⊢
  · exact absurd rfl h
  · rfl
  · rfl
  · exact absurd rfl h
  · exact (advance_cases c p hne).1

/-- Every path enters WAIT_DONE from START_TX, and stays there until `t_done` (R144, R145). -/
theorem Dispatcher.path_waitDone {d x : Dispatcher} {c : Config} {p : DispatcherIn} {code : Byte}
    {reg : Addr} {data : Data} (hx : d.Dispatched x)
    (h : (d.path c p code reg data x).cst = .waitDone) :
    d.cst = .startTx ∨ (d.cst = .waitDone ∧ p.tDone = false) := by
  cases hc : d.cst <;> simp only [path, hc] at h
  case init => unfold greet at h; split_ifs at h; simp [hc] at h
  case waitCmd => unfold takeCommand at h; split_ifs at h; simp [hc] at h
  case dispatch =>
    rcases hx with rfl | rfl | rfl | rfl | rfl | rfl <;>
      simp [dispatchTest, dispatchPowerOn, dispatchPowerOff, dispatchWriteReg, dispatchReadReg,
        dispatchIgnored] at h
  case recvReg => unfold takeRegister at h; split_ifs at h; simp [hc] at h
  case recvData => unfold takeData at h; split_ifs at h; simp [hc] at h
  case startTx => exact .inl rfl
  case waitDone =>
    refine .inr ⟨rfl, Bool.eq_false_iff.mpr fun done => ?_⟩
    rw [waitDone, if_pos done] at h
    split_ifs at h
  case sendData => unfold sendData at h; split_ifs at h; simp [hc] at h
  case sendAck => unfold sendAck at h; split_ifs at h; simp [hc] at h

/-- START_TX gives a start pulse and goes to WAIT_DONE (R144). -/
theorem State.dispatcherNext_startTx_facts {s : State} (h : s.dispatcher.cst = .startTx) :
    (s.dispatcherNext.swR || s.dispatcherNext.srR) = true ∧ s.dispatcherNext.cst = .waitDone := by
  simp [State.dispatcherNext_of_startTx h, Dispatcher.startTx]

/-- A start pulse comes out of START_TX only (R144). -/
theorem State.startTx_of_dispatcherNext_start {s : State}
    (h : (s.dispatcherNext.swR || s.dispatcherNext.srR) = true) : s.dispatcher.cst = .startTx := by
  by_contra hc
  obtain ⟨hw, hr⟩ := s.dispatcherNext_frame.starts hc
  simp [hw, hr] at h

section

variable {s : State}

/-- A start pulse begins the frame it names, and the dispatcher waits (R173, R174). -/
theorem CommandLink.afterCycle_of_start (hd : s.dispatcher.Legal s.cfg)
    (h : CommandLink s.dispatcher s.transactor)
    (start : (s.dispatcher.swR || s.dispatcher.srR) = true) :
    CommandLink s.dispatcherNext (s.transactor.next s.cfg s.transactorIn) := by
  obtain ⟨hc, ht, hdone⟩ := h.startPulse start
  rw [State.dispatcherNext_of_waiting hc hdone]
  cases hw : s.dispatcher.swR with
  | true =>
    rw [Transactor.next_of_startWrite ht hw (hd.oneStart hw)]
    constructor <;> simp [Transactor.acceptWrite, State.transactorIn, hc, hd.writeStart hw]
  | false =>
    have hr : s.dispatcher.srR = true := by simpa [hw] using start
    rw [Transactor.next_of_startRead ht hw hr]
    constructor <;> simp [Transactor.acceptRead, State.transactorIn, hc, hd.readStart hr]

/-- Without frame and start the transactor rests, and only START_TX leads to WAIT_DONE (R144). -/
theorem CommandLink.afterCycle_of_rest (h : CommandLink s.dispatcher s.transactor)
    (ht : s.transactor.tst = .idle)
    (noStart : s.dispatcher.swR = false ∧ s.dispatcher.srR = false) :
    CommandLink s.dispatcherNext (s.transactor.next s.cfg s.transactorIn) := by
  obtain ⟨hw, hr⟩ := noStart
  rw [Transactor.next_of_no_start ht hw hr]
  constructor
  case startPulse =>
    intro pulse
    have hc := State.startTx_of_dispatcherNext_start pulse
    exact ⟨(State.dispatcherNext_startTx_facts hc).2, ht, rfl⟩
  case waitHasCause =>
    intro wait
    obtain hc | ⟨hc, hdone⟩ :=
      Dispatcher.path_waitDone (s.dispatcher.dispatchByCode_cases _) wait
    · exact .inl (State.dispatcherNext_startTx_facts hc).1
    · have noDone : s.transactor.tdone = false := hdone
      have cause := h.waitHasCause hc
      simp [hw, hr, ht, noDone] at cause
  all_goals simp [ht]

/-- In a frame the dispatcher only waits, and `t_done` comes with the frame's end (R145, R183). -/
theorem CommandLink.afterCycle_of_busy (h : CommandLink s.dispatcher s.transactor)
    (ht : s.transactor.tst ≠ .idle) :
    CommandLink s.dispatcherNext (s.transactor.next s.cfg s.transactorIn) := by
  have hc := h.busyWaits ht
  have hdone : s.transactor.tdone = false :=
    Bool.eq_false_iff.mpr fun done => ht (h.donePulse done).2
  rw [State.dispatcherNext_of_waiting hc hdone]
  obtain ⟨hop, htreg, htwdata, hend⟩ := Transactor.next_busy_facts s.cfg s.transactorIn ht
  obtain ⟨op, treg, twdata⟩ := h.frameOperands ht
  obtain ⟨busy, noDone⟩ | ⟨idle, done⟩ := hend <;> constructor <;> simp_all

/-- A cycle keeps the dispatcher and the transactor together. -/
theorem CommandLink.afterCycle (hd : s.dispatcher.Legal s.cfg)
    (h : CommandLink s.dispatcher s.transactor) :
    CommandLink s.dispatcherNext (s.transactor.next s.cfg s.transactorIn) := by
  by_cases ht : s.transactor.tst = .idle
  · by_cases start : (s.dispatcher.swR || s.dispatcher.srR) = true
    · exact h.afterCycle_of_start hd start
    · exact h.afterCycle_of_rest ht (by simpa using start)
  · exact h.afterCycle_of_busy ht

end

/-! #### The transactor and the emitter (R186, R218, R305) -/

theorem BitEmitter.ready_of_inSymbol {e : BitEmitter} (h : e.inSymbol = true) :
    e.ready = true := by
  cases he : e.est <;> simp_all [inSymbol, ready]

/-- An attached emitter is in IDLE or in a symbol. -/
theorem BitEmitter.est_eq_idle {e : BitEmitter} (hr : e.ready = true)
    (hs : e.inSymbol = false) : e.est = .idle := by
  cases he : e.est <;> simp_all [inSymbol, ready]

theorem BitEmitter.inSymbol_iff (e : BitEmitter) :
    e.inSymbol = true ↔ e.est = .space ∨ e.est = .mark ∨ e.est = .stop := by
  cases he : e.est <;> simp [inSymbol, he]

/-- Outside a symbol the emitter's own step starts none and finishes none (R203 to R205). -/
theorem BitEmitter.phase_of_not_inSymbol (c : Config) (m k : Bool) {e : BitEmitter}
    (h : e.inSymbol = false) :
    (e.phase c m k).inSymbol = false ∧ (e.phase c m k).efin = false := by
  obtain ⟨-, idle, -, attach⟩ := e.phase_cases c m k
  cases hr : e.ready with
  | true =>
    obtain ⟨hest, hfin⟩ := idle (e.est_eq_idle hr h)
    exact ⟨by simp [inSymbol, hest], hfin⟩
  | false => exact attach hr

/-- No request, no acceptance. -/
theorem State.emitterNext_of_no_request {s : State} (h : s.transactor.emitReq = false) :
    s.emitterNext = s.emitterPhase := by
  simp [State.emitterNext, h]

/-- In IDLE a request starts the symbol of the transactor's state: a STOP in STOP, a SPACE elsewhere
(R89, R205 to R209). -/
theorem State.emitterNext_of_request {s : State} (h : s.transactor.emitReq = true)
    (he : s.emitter.est = .idle) :
    s.emitter.Accepted s.cfg s.emitterNext ∧
      s.emitterNext.est = if s.transactor.tst = .stop then .stop else .space := by
  have stop : s.transactor.tst = .stop ↔ s.transactor.emitKind = 0b11#2 := by
    cases hs : s.transactor.tst <;> simp [Transactor.emitKind, hs, bitKind] <;> split_ifs <;> decide
  simp only [State.emitterNext, h, if_true, State.emitterOn_of_idle _ _ he, stop]
  obtain kind | kind | kind | kind := lane_cases s.transactor.emitKind <;> rw [kind]
  · exact ⟨.inl rfl, rfl⟩
  · exact ⟨.inr (.inl rfl), rfl⟩
  · exact ⟨.inr (.inr (.inl rfl)), rfl⟩
  · exact ⟨.inr (.inr (.inr rfl)), rfl⟩

theorem Transactor.ne_idle_of_emitting {t : Transactor} (h : t.emitting = true) :
    t.tst ≠ .idle := by
  intro hs; simp [emitting, hs] at h

theorem Transactor.ne_rdata_of_emitting {t : Transactor} (h : t.emitting = true) :
    t.tst ≠ .rdata := by
  intro hs; simp [emitting, hs] at h

theorem BitEmitter.inSymbol_of_idle {e : BitEmitter} (h : e.est = .idle) :
    e.inSymbol = false := by
  simp [inSymbol, h]

/-- With nothing on the line and no symbol asked for, transactor and emitter are together. -/
theorem SymbolLink.of_rest {t : Transactor} {e : BitEmitter} (sym : e.inSymbol = false)
    (fin : e.efin = false) (rest : t.emitting = true → t.issued = false) : SymbolLink t e := by
  have off := e.inSymbol_iff.not.mp (Bool.eq_false_iff.mp sym)
  simp only [not_or] at off
  constructor <;> simp_all

/-- While the transactor waits, its symbol goes on as the same kind of symbol, or ends with
`e_finish` (R210 to R212). -/
theorem SymbolLink.phase {t : Transactor} {e : BitEmitter} (h : SymbolLink t e)
    (sym : e.inSymbol = true) (c : Config) (m k : Bool) : SymbolLink t.quiet (e.phase c m k) := by
  have wanted := h.symbolWanted sym
  obtain ⟨-, -, goes, -⟩ := e.phase_cases c m k
  obtain ⟨sym', fin', stop⟩ | ⟨idle, fin'⟩ := goes sym
  · have bit (hs : (e.phase c m k).est ≠ .stop) : t.tst ≠ .stop :=
      h.bitSymbol (by simpa [stop.not.mp hs] using e.inSymbol_iff.mp sym)
    exact ⟨fun _ => wanted, fun fin => absurd (fin.symm.trans fin') (by decide),
      fun _ _ => .inl sym', fun he => h.stopSymbol (stop.mp he),
      fun he => bit (by rintro hs; simp [hs] at he)⟩
  · exact ⟨fun _ => wanted, fun _ => ⟨idle, wanted⟩, fun _ _ => .inr fin',
      fun he => by simp [idle] at he, fun he => by simp [idle] at he⟩

/-- The symbol of a request is the one the transactor now waits for (R177, R205). -/
theorem SymbolLink.of_request {t : Transactor} {e : BitEmitter} (emitting : t.emitting = true)
    (sym : e.inSymbol = true) (fin : e.efin = false)
    (est : e.est = if t.tst = .stop then .stop else .space) :
    SymbolLink { t.quiet with issued := true } e := by
  have noFinish : e.efin ≠ true := by simp [fin]
  by_cases stop : t.tst = .stop
  · rw [if_pos stop] at est
    exact ⟨fun _ => ⟨emitting, rfl⟩, fun f => absurd f noFinish, fun _ _ => .inl sym,
      fun _ => stop, fun he => by simp [est] at he⟩
  · rw [if_neg stop] at est
    exact ⟨fun _ => ⟨emitting, rfl⟩, fun f => absurd f noFinish, fun _ _ => .inl sym,
      fun he => by simp [est] at he, fun _ => stop⟩

/-- A cycle keeps the transactor and the emitter together: a symbol runs while the transactor waits
for it, its `finish` is met by the advance, and a request starts the symbol asked for. -/
theorem SymbolLink.afterCycle {s : State} (hc : s.cfg.accepted = true)
    (h : SymbolLink s.transactor s.emitter)
    (attached : s.transactor.emitting = true → s.emitter.ready = true) :
    SymbolLink (s.transactor.next s.cfg s.transactorIn) s.emitterNext := by
  -- the pulse a state with a symbol waits for is the emitter's
  have seen (he : s.transactor.emitting = true) :
      s.transactor.finishSeen s.transactorIn = s.emitter.efin :=
    if_neg (Transactor.ne_rdata_of_emitting he)
  cases sym : s.emitter.inSymbol with
  | true =>
    obtain ⟨emitting, issued⟩ := h.symbolWanted sym
    have fin : s.emitter.efin = false := Bool.eq_false_iff.mpr fun fin => by
      simp [BitEmitter.inSymbol_of_idle (h.finishWanted fin).1] at sym
    rw [Transactor.next_of_waiting (Transactor.ne_idle_of_emitting emitting) issued
        ((seen emitting).trans fin),
      State.emitterNext_of_no_request (by simp [Transactor.emitReq, issued])]
    exact h.phase sym _ _ _
  | false =>
    obtain ⟨sym', fin'⟩ := s.emitter.phase_of_not_inSymbol s.cfg s.msTick s.ebTick sym
    cases emitting : s.transactor.emitting with
    | false =>
      rw [State.emitterNext_of_no_request (by simp [Transactor.emitReq, emitting])]
      refine .of_rest sym' fin' fun emitting' => Transactor.next_issued_of_tst_ne fun hs => ?_
      simp only [Transactor.emitting, hs] at emitting emitting'
      simp [emitting] at emitting'
    | true =>
      have busy := Transactor.ne_idle_of_emitting emitting
      cases issued : s.transactor.issued with
      | true =>
        have fin : s.emitter.efin = true := by simpa [sym] using h.symbolComes emitting issued
        rw [Transactor.next_of_finish busy issued ((seen emitting).trans fin),
          State.emitterNext_of_no_request (by simp [Transactor.emitReq, issued])]
        exact .of_rest sym' fin' fun _ => (Transactor.advance_cases _ _ busy).1
      | false =>
        obtain ⟨accepted, est⟩ :=
          State.emitterNext_of_request (by simp [Transactor.emitReq, emitting, issued])
            (BitEmitter.est_eq_idle (attached emitting) sym)
        obtain ⟨sym', fin', -⟩ := accepted.facts hc
        rw [Transactor.next_of_request busy issued]
        exact .of_request emitting sym' fin' est

/-! #### The transactor and the decoder (R186, R305) -/

/-- No request, no acceptance. -/
theorem State.decoderNext_of_no_request {s : State} (h : s.transactor.decReq = false) :
    s.decoderNext = s.decoderPhase := by
  simp [State.decoderNext, h]

/-- In IDLE a request starts a bit read (R243). -/
theorem State.decoderNext_of_request {s : State} (h : s.transactor.decReq = true)
    (hb : s.decoder.dst = .idle) : s.decoderNext = s.decoder.acceptRead s.swioIn := by
  rw [State.decoderNext, if_pos h, s.decoderOn_of_idle _ hb]

/-- With no bit read and none asked for, transactor and decoder are together. -/
theorem BitReadLink.of_rest {t : Transactor} {b : BitDecoder} (idle : b.dst = .idle)
    (fin : b.dfin = false) (rest : t.tst = .rdata → t.issued = false) : BitReadLink t b := by
  constructor <;> simp_all

/-- A cycle keeps the transactor and the decoder together: a bit read runs while the transactor
waits for it, its `finish` is met by the advance, and a request starts a bit read. -/
theorem BitReadLink.afterCycle {s : State} (hc : s.cfg.accepted = true)
    (h : BitReadLink s.transactor s.decoder) :
    BitReadLink (s.transactor.next s.cfg s.transactorIn) s.decoderNext := by
  -- the pulse RDATA waits for is the decoder's
  have seen (hr : s.transactor.tst = .rdata) :
      s.transactor.finishSeen s.transactorIn = s.decoder.dfin := if_pos hr
  have busy (hr : s.transactor.tst = .rdata) : s.transactor.tst ≠ .idle := by simp [hr]
  obtain ⟨rests, goes⟩ := s.decoder.phase_cases s.cfg s.swioIn s.dTick
  by_cases idle : s.decoder.dst = .idle
  · obtain ⟨idle', fin'⟩ := rests idle
    by_cases rdata : s.transactor.tst = .rdata
    · cases issued : s.transactor.issued with
      | true =>
        have fin : s.decoder.dfin = true := by simpa [idle] using h.bitReadComes rdata issued
        rw [Transactor.next_of_finish (busy rdata) issued ((seen rdata).trans fin),
          State.decoderNext_of_no_request (by simp [Transactor.decReq, issued])]
        exact .of_rest idle' fin' fun _ => (Transactor.advance_cases _ _ (busy rdata)).1
      | false =>
        obtain ⟨ne', fin', -⟩ := s.decoder.acceptRead_facts hc s.swioIn
        rw [Transactor.next_of_request (busy rdata) issued,
          State.decoderNext_of_request (by simp [Transactor.decReq, rdata, issued]) idle]
        exact ⟨fun _ => ⟨rdata, rfl, fin'⟩, fun fin => absurd (fin.symm.trans fin') (by decide),
          fun _ _ => .inl ne'⟩
    · rw [State.decoderNext_of_no_request (by simp [Transactor.decReq, rdata])]
      exact .of_rest idle' fin' fun rdata' =>
        Transactor.next_issued_of_tst_ne fun hs => rdata (hs ▸ rdata')
  · obtain ⟨rdata, issued, fin⟩ := h.bitReadWanted idle
    rw [Transactor.next_of_waiting (busy rdata) issued ((seen rdata).trans fin),
      State.decoderNext_of_no_request (by simp [Transactor.decReq, issued])]
    obtain ⟨ne', fin'⟩ | ⟨idle', fin'⟩ := goes idle
    · exact ⟨fun _ => ⟨rdata, issued, fin'⟩, fun f => absurd (f.symm.trans fin') (by decide),
        fun _ _ => .inl ne'⟩
    · exact ⟨fun ne => absurd idle' ne, fun _ => ⟨idle', rdata, issued⟩, fun _ _ => .inr fin'⟩

/-! ### The whole core -/

/-- A cycle keeps the emitter's counters within their phases. -/
theorem State.emitterNext_countsOk {s : State} (hc : s.cfg.accepted = true)
    (h : s.emitter.CountsOk s.cfg) : s.emitterNext.CountsOk s.cfg := by
  obtain e | ⟨-, accepted⟩ := s.emitterNext_cases
  · exact e ▸ BitEmitter.phase_countsOk hc h _ _
  · exact (accepted.facts hc).2.2

/-- A cycle keeps the decoder's counters within their states. -/
theorem State.decoderNext_countsOk {s : State} (hc : s.cfg.accepted = true)
    (h : s.decoder.CountsOk s.cfg) : s.decoderNext.CountsOk s.cfg := by
  obtain e | ⟨-, e⟩ := s.decoderNext_cases <;> rw [e]
  · exact BitDecoder.phase_countsOk hc h _ _
  · exact (s.decoder.acceptRead_facts hc _).2.2

/-- The emitter stays attached (R204, R214). -/
theorem State.emitterNext_ready {s : State} (hc : s.cfg.accepted = true)
    (h : s.emitter.ready = true) : s.emitterNext.ready = true := by
  obtain e | ⟨-, accepted⟩ := s.emitterNext_cases
  · exact e ▸ (s.emitter.phase_cases _ _ _).1 h
  · exact BitEmitter.ready_of_inSymbol (accepted.facts hc).1

/-- Until the emitter is attached the dispatcher stays in INIT (R133). -/
theorem State.dispatcherNext_of_attaching {s : State} (h : s.dispatcher.cst = .init)
    (he : s.emitter.ready = false) : s.dispatcherNext = s.dispatcher.quiet := by
  simp [State.dispatcherNext_of_init h, Dispatcher.greet, State.dispatcherIn, State.tReady, he]

theorem CoreInv.attached {s : State} (h : CoreInv s) (hc : s.dispatcher.cst ≠ .init) :
    s.emitter.ready = true := by
  by_contra hr
  exact hc (h.attachInInit (Bool.eq_false_iff.mpr hr))

/-- A cycle of the core keeps its invariant: each part for its own reason. -/
theorem CoreInv.afterCycle {s : State} (h : CoreInv s) : CoreInv s.afterCycle := by
  have hc := h.accepted
  obtain ⟨⟨-, ms⟩, ⟨-, bit⟩, -⟩ := Config.accepted_bounds s.cfg hc
  apply CoreInv.of_parts
  case accepted => exact hc
  case ems => exact (TickSource.next_acc _ _ s.ems ms h.emsBound).1
  case ebt => exact (TickSource.next_acc _ _ s.ebt bit h.ebtBound).1
  case dbt => exact congrArg (TickSource.next _ _) h.sameBitTicks
  case emitter => exact State.emitterNext_countsOk hc h.emitterCounts
  case decoder => exact State.decoderNext_countsOk hc h.decoderCounts
  case transactor => exact h.transactorLegal.next hc h.addrWidth.1
  case dispatcher => exact State.dispatcherNext_legal h.dispatcherLegal h.dataWidth.1
  case attach =>
    intro off
    have off' : s.emitter.ready = false := Bool.eq_false_iff.mpr fun on => by
      simp [State.afterCycle, State.emitterNext_ready hc on] at off
    have init := h.attachInInit off'
    simp [State.afterCycle, State.dispatcherNext_of_attaching init off', init]
  case command => exact h.commandLink.afterCycle h.dispatcherLegal
  case symbol =>
    refine h.symbolLink.afterCycle hc fun emitting => h.attached ?_
    simp [h.busyWaits (Transactor.ne_idle_of_emitting emitting)]
  case bitRead => exact h.bitReadLink.afterCycle hc

/-! ### Requests inside the core (R114, R186) -/

theorem BitEmitter.quiet_of_efin {e : BitEmitter} (h : e.efin = false) : e.quiet = e := by
  rw [quiet, ← h]

theorem BitDecoder.quiet_of_dfin {b : BitDecoder} (h : b.dfin = false) : b.quiet = b := by
  rw [quiet, ← h]

theorem Transactor.quiet_of_tdone {t : Transactor} (h : t.tdone = false) : t.quiet = t := by
  rw [quiet, ← h]

section

variable {s : State}

/-- While no symbol is under way a legal emitter is at rest. -/
theorem CoreInv.emitter_idle (h : CoreInv s) (hc : s.dispatcher.cst ≠ .init)
    (ht : s.transactor.emitting = true → s.transactor.issued = false) :
    s.emitter.est = .idle ∧ s.emitter.efin = false := by
  refine ⟨BitEmitter.est_eq_idle (h.attached hc) (Bool.eq_false_iff.mpr fun sym => ?_),
    Bool.eq_false_iff.mpr fun fin => ?_⟩
  · obtain ⟨emitting, issued⟩ := h.symbolWanted sym
    simp [ht emitting] at issued
  · obtain ⟨-, emitting, issued⟩ := h.finishWanted fin
    simp [ht emitting] at issued

/-- While no bit read is under way a legal decoder is at rest. -/
theorem CoreInv.decoder_idle (h : CoreInv s)
    (ht : s.transactor.tst = .rdata → s.transactor.issued = false) :
    s.decoder.dst = .idle ∧ s.decoder.dfin = false := by
  refine ⟨?_, Bool.eq_false_iff.mpr fun fin => ?_⟩
  · by_contra ne
    obtain ⟨rdata, issued, -⟩ := h.bitReadWanted ne
    simp [ht rdata] at issued
  · obtain ⟨-, rdata, issued⟩ := h.bitReadDone fin
    simp [ht rdata] at issued

theorem State.emitterNext_of_rest (he : s.emitter.est = .idle ∧ s.emitter.efin = false)
    (h : s.transactor.emitReq = false) : s.emitterNext = s.emitter := by
  obtain ⟨idle, fin⟩ := he
  rw [State.emitterNext_of_no_request h, State.emitterPhase, BitEmitter.phase, idle]
  exact BitEmitter.quiet_of_efin fin

theorem State.decoderNext_of_rest (hb : s.decoder.dst = .idle ∧ s.decoder.dfin = false)
    (h : s.transactor.decReq = false) : s.decoderNext = s.decoder := by
  obtain ⟨idle, fin⟩ := hb
  rw [State.decoderNext_of_no_request h, State.decoderPhase, BitDecoder.phase, idle]
  exact BitDecoder.quiet_of_dfin fin

/-- While no bit is being read the decoder is unchanged. -/
theorem CoreInv.decoderNext_of_ne_rdata (h : CoreInv s) (ht : s.transactor.tst ≠ .rdata) :
    s.decoderNext = s.decoder :=
  State.decoderNext_of_rest (h.decoder_idle fun rdata => absurd rdata ht)
    (by simp [Transactor.decReq, ht])

/-- Past INIT, while the transactor is in no state with a symbol, the emitter is unchanged. -/
theorem CoreInv.emitterNext_of_not_emitting (h : CoreInv s) (hc : s.dispatcher.cst ≠ .init)
    (ht : s.transactor.emitting = false) : s.emitterNext = s.emitter :=
  State.emitterNext_of_rest (h.emitter_idle hc fun emitting => by simp [ht] at emitting)
    (by simp [Transactor.emitReq, ht])

/-- In a frame a legal state shows no start pulse and no `t_done`. -/
theorem CoreInv.busy_facts (h : CoreInv s) (ht : s.transactor.tst ≠ .idle) :
    s.dispatcher.cst = .waitDone ∧ s.transactor.tdone = false ∧ s.dispatcher.swR = false ∧
      s.dispatcher.srR = false := by
  have noStart : ¬(s.dispatcher.swR || s.dispatcher.srR) = true := fun pulse =>
    ht (h.startPulse pulse).2.1
  have noDone : ¬s.transactor.tdone = true := fun done => ht (h.donePulse done).2
  exact ⟨h.busyWaits ht, by simpa using noDone, by simpa using noStart⟩

/-- In a frame the dispatcher ends its ByteLink pulses, and that is all. -/
theorem CoreInv.dispatcherNext_of_busy (h : CoreInv s) (ht : s.transactor.tst ≠ .idle) :
    s.dispatcherNext = { s.dispatcher with rxAckR := false, txStartR := false } := by
  obtain ⟨hc, hdone, hw, hr⟩ := h.busy_facts ht
  simp [State.dispatcherNext_of_waiting hc hdone, Dispatcher.quiet, hw, hr]

/-- A request of a legal state is noted in `issued`, and that is all. -/
theorem CoreInv.transactorNext_of_request (h : CoreInv s) (ht : s.transactor.tst ≠ .idle)
    (hi : s.transactor.issued = false) :
    s.transactor.next s.cfg s.transactorIn = { s.transactor with issued := true } := by
  rw [Transactor.next_of_request ht hi, Transactor.quiet_of_tdone (h.busy_facts ht).2.1]

/-- A start leaves emitter, decoder, the word read and the bit index alone, and of the dispatcher
all but its pulses (R173, R174). -/
theorem CoreInv.afterCycle_of_start (h : CoreInv s)
    (pulse : (s.dispatcher.swR || s.dispatcher.srR) = true) :
    s.emitterNext = s.emitter ∧ s.decoderNext = s.decoder ∧
      s.dispatcherNext = s.dispatcher.quiet ∧
      (s.transactor.next s.cfg s.transactorIn).rshift = s.transactor.rshift ∧
      (s.transactor.next s.cfg s.transactorIn).idx = s.transactor.idx := by
  obtain ⟨hc, ht, hdone⟩ := h.startPulse pulse
  refine ⟨h.emitterNext_of_not_emitting (by simp [hc]) (by simp [Transactor.emitting, ht]),
    h.decoderNext_of_ne_rdata (by simp [ht]), State.dispatcherNext_of_waiting hc hdone, ?_⟩
  obtain e | ⟨-, e | e⟩ | ⟨ne, -⟩ | ⟨ne, -⟩ :=
    s.transactor.next_cases s.cfg s.transactorIn
  · simp [e]
  · simp [e, Transactor.acceptWrite]
  · simp [e, Transactor.acceptRead]
  · exact absurd ht ne
  · exact absurd ht ne

/-- In INIT the transactor is at rest and stays so (R133). -/
theorem CoreInv.transactorNext_of_init (h : CoreInv s) (hc : s.dispatcher.cst = .init) :
    s.transactor.tst = .idle ∧ s.transactor.next s.cfg s.transactorIn = s.transactor := by
  have notWaiting : s.dispatcher.cst ≠ .waitDone := by simp [hc]
  have ht : s.transactor.tst = .idle := by_contra fun busy => notWaiting (h.busyWaits busy)
  have noDone : ¬s.transactor.tdone = true := fun done => notWaiting (h.donePulse done).1
  have noStart : ¬(s.dispatcher.swR || s.dispatcher.srR) = true := fun pulse =>
    notWaiting (h.startPulse pulse).1
  simp only [Bool.or_eq_true, not_or, Bool.not_eq_true] at noDone noStart
  obtain ⟨hw, hr⟩ := noStart
  exact ⟨ht, (Transactor.next_of_no_start ht hw hr).trans (Transactor.quiet_of_tdone noDone)⟩

end

/-! ### The obligations -/

/-- Settles O10: `rst` beats every other guard, and `ResetState` is R35's table. -/
theorem rstLeadsToResetState : Obligations.RstLeadsToResetState := fun s ha hr =>
  ⟨s.resetNow, step_of_rst ha hr, rfl, rfl, rfl, rfl, rfl, rfl, rfl, rfl⟩

/-- Settles O47: power is a DISPATCH register, and DISPATCH takes its case on `cmd`. -/
theorem powerChangesOnlyByItsCommands : Obligations.PowerChangesOnlyByItsCommands := by
  intro s t h hr
  obtain ⟨hrst, -⟩ | ⟨-, rfl⟩ := step_next_reset_or_cycle h
  · simp [hr] at hrst
  change s.dispatcherNext.power = _
  by_cases hc : s.dispatcher.cst = .dispatch
  · rw [State.dispatcherNext_of_dispatch hc, Dispatcher.dispatchByCode_power]
    simp only [hc, true_and]
    rfl
  · rw [s.dispatcherNext_frame.power hc]
    simp [hc]

/-- Settles O36: the dispatcher is on some command's path, the greeting's being the path in INIT. -/
theorem dispatcherRegisterFrame : Obligations.DispatcherRegisterFrame := by
  intro i s t h
  obtain ⟨hcfg, hd, -, -, -⟩ := exec_next_cases h
  have frame : s.dispatcher.Frame t.dispatcher := by
    obtain ⟨code, reg, data, x, hx, ht⟩ | ⟨hc, ht⟩ := hd
    · exact ht ▸ s.dispatcher.path_frame _ _ _ _ _ hx
    · rw [ht, ← State.dispatcherNext_of_init hc]
      exact s.dispatcherNext_frame
  exact ⟨hcfg, frame.cmd, frame.power, frame.creg, frame.cwdata, frame.crdata, frame.cidx,
    frame.txDataR, frame.starts⟩

/-- Settles O37: only a start writes the operands, and only the advance out of a finished bit read
writes what was read. -/
theorem transactorRegisterFrame : Obligations.TransactorRegisterFrame := by
  intro i s t h
  obtain ⟨-, -, ⟨p, ht, -, hfin, -⟩, -, -⟩ := exec_next_cases h
  rw [ht]
  obtain e | ⟨hidle, e | e⟩ | ⟨-, -, e⟩ | ⟨-, hi, hf, e⟩ := s.transactor.next_cases s.cfg p <;>
    rw [e]
  · simp
  · simp [hidle, Transactor.acceptWrite]
  · simp [hidle, Transactor.acceptRead]
  · simp
  · obtain ⟨hop, htreg, htwdata, hread⟩ := s.transactor.advance_frame s.cfg p
    have notRead (hn : ¬(s.transactor.tst = .rdata ∧ s.transactor.issued = true ∧
        s.decoder.dfin = true)) : s.transactor.tst ≠ .rdata := fun hr =>
      hn ⟨hr, hi, by rwa [Transactor.finishSeen, if_pos hr, hfin] at hf⟩
    exact ⟨fun _ => ⟨hop, htreg, htwdata⟩, fun hn => (hread (notRead hn)).1,
      fun _ hn => (hread (notRead hn)).2, fun _ => htwdata⟩

/-- Settles O38: a phase and an accepted request each keep to the frame of their component. -/
theorem lineRegisterFrame : Obligations.LineRegisterFrame := by
  intro i s t h
  obtain ⟨-, -, -, he, hb⟩ := exec_next_cases h
  have emitter : s.emitter.Frame t.emitter := by
    obtain e | ⟨a, ha, e⟩ := he <;> rw [e]
    · exact s.emitterNext_frame
    · exact State.emitterOn_frame ha
  have decoder : s.decoder.Frame t.decoder := by
    obtain e | e := hb <;> rw [e]
    · exact s.decoderNext_frame
    · exact s.decoderOn_frame
  exact ⟨emitter.msCnt, emitter.bcnt, emitter.efin, decoder.dcnt, decoder.verdict, decoder.mcnt,
    decoder.dfin⟩

/-- Settles O41: each part of the invariant holds at reset. -/
theorem resetStateIsLegal : Obligations.ResetStateIsLegal := fun _ env hc =>
  CoreInv.resetWith hc env

/-- Settles O42: a step is a reset, whose state is legal, or a whole cycle. -/
theorem everyStepKeepsTheCoreInvariant : Obligations.EveryStepKeepsTheCoreInvariant := by
  intro s t h hs
  obtain ⟨-, rfl⟩ | ⟨-, rfl⟩ := step_next_reset_or_cycle hs
  · exact CoreInv.resetWith h.accepted s.envNext
  · exact h.afterCycle

/-- Settles O40: the instruction's cycle is the plain cycle, in which a legal state has everything
else at rest. -/
theorem requestFrameInsideTheCore : Obligations.RequestFrameInsideTheCore := by
  intro i s t p h carried ht
  rw [exec_eq_cycle_of_carried carried] at ht
  obtain rfl := State.cycle_next ht
  refine ⟨?start, ?emit, ?read, ?greet⟩ <;> rintro rfl
  case start =>
    rw [State.carried_transactorStart] at carried
    exact h.afterCycle_of_start (by split_ifs at carried <;> simp_all)
  case emit =>
    rw [State.carried_emitterRequest] at carried
    obtain ⟨emitting, issued⟩ : s.transactor.emitting = true ∧ s.transactor.issued = false := by
      have req : s.transactor.emitReq = true := by by_contra off; simp [off] at carried
      simpa [Transactor.emitReq] using req
    have busy := Transactor.ne_idle_of_emitting emitting
    obtain ⟨hc, -⟩ := h.busy_facts busy
    obtain ⟨idle, -⟩ := h.emitter_idle (by simp [hc]) fun _ => issued
    exact ⟨h.decoderNext_of_ne_rdata (Transactor.ne_rdata_of_emitting emitting),
      h.dispatcherNext_of_busy busy, h.transactorNext_of_request busy issued,
      s.emitterNext_frame.msCnt (by simp [idle]) (by simp [idle])⟩
  case read =>
    rw [State.carried_decoderRequest] at carried
    obtain ⟨rdata, issued⟩ : s.transactor.tst = .rdata ∧ s.transactor.issued = false := by
      have req : s.transactor.decReq = true := by by_contra off; simp [off] at carried
      simpa [Transactor.decReq] using req
    have busy : s.transactor.tst ≠ .idle := by simp [rdata]
    obtain ⟨hc, -⟩ := h.busy_facts busy
    obtain ⟨idle, -⟩ := h.decoder_idle fun _ => issued
    obtain ⟨dbit, derr⟩ := s.decoderNext_frame.verdict (by simp [idle])
    exact ⟨h.emitterNext_of_not_emitting (by simp [hc]) (by simp [Transactor.emitting, rdata]),
      h.dispatcherNext_of_busy busy, h.transactorNext_of_request busy issued, dbit, derr,
      s.decoderNext_frame.mcnt (by simp [idle]) (by simp [idle])⟩
  case greet =>
    rw [State.carried_deviceOutput] at carried
    have hc : s.dispatcher.cst = .init := by by_contra other; simp [other] at carried
    obtain ⟨ht, next⟩ := h.transactorNext_of_init hc
    have frame := s.dispatcherNext_frame
    exact ⟨next, h.decoderNext_of_ne_rdata (by simp [ht]), frame.cmd (by simp [hc]),
      frame.creg (by simp [hc]), frame.cwdata (by simp [hc]), frame.crdata (by simp [hc]),
      frame.cidx (by simp [hc]) (by simp [hc]) (by simp [hc]) (by simp [hc]),
      frame.power (by simp [hc])⟩

end Sys2Proof.Machine

/-! SUPPORT. The words of the host link: the value of a register byte and of four data bytes (spec
rules R63, R68, R85, R86), what the lane counter makes of four bytes taken or sent one after the
other (R143, R146), and what a host command's DISPATCH cycle leaves alone in a legal state (R67,
R135 to R141); with the obligations on 20_memory.md. -/

namespace Sys2Proof

/-! ### Words and their four bytes (R68, R69) -/

theorem toNat_byteLane (v : Data) (i : BitVec 2) :
    (byteLane v i).toNat = v.toNat / 2 ^ (8 * i.toNat) % 256 := by
  simp [byteLane, Nat.shiftRight_eq_div_pow]

/-- Lane `i` counts in units of 256 to the `i`: the least significant byte comes first (R68). -/
theorem toNat_eq_sum_byteLane (v : Data) :
    v.toNat = (byteLane v 0).toNat + 256 * (byteLane v 1).toNat + 65536 * (byteLane v 2).toNat +
      16777216 * (byteLane v 3).toNat := by
  have lt := v.isLt
  simp only [BitVec.ofNat_eq_ofNat, toNat_byteLane, BitVec.toNat_ofNat, Nat.reducePow,
    Nat.zero_mod, mul_zero, pow_zero, Nat.div_one, Nat.one_mod, mul_one, Nat.reduceMod,
    Nat.reduceMul, Nat.mod_succ]
  omega

/-- The lanes of an assembled word are the bytes it was assembled from. -/
theorem toNat_dataOfBytes (b0 b1 b2 b3 : Byte) :
    (dataOfBytes b0 b1 b2 b3).toNat =
      b0.toNat + 256 * b1.toNat + 65536 * b2.toNat + 16777216 * b3.toNat := by
  have bytes := bytesOfData_dataOfBytes b0 b1 b2 b3
  simp only [bytesOfData, List.cons.injEq, and_true] at bytes
  obtain ⟨lane0, lane1, lane2, lane3⟩ := bytes
  rw [toNat_eq_sum_byteLane, lane0, lane1, lane2, lane3]

/-- Nothing of the old word is left when all four lanes have been written. -/
theorem insertLane_all (v : Data) (b0 b1 b2 b3 : Byte) :
    insertLane (insertLane (insertLane (insertLane v 0#2 b0) 1#2 b1) 2#2 b2) 3#2 b3 =
      dataOfBytes b0 b1 b2 b3 := by
  rw [← dataOfBytes_byteLane (insertLane _ 3#2 b3)]
  simp [byteLane_insertLane_of_ne]

/-- The lane counter wraps from 3 to 0 by itself: it has two bits (R143, R146). -/
theorem nextLane_eq_add_one (i : BitVec 2) : (if i = 3 then 0 else i + 1) = i + 1 := by
  revert i; decide

end Sys2Proof

namespace Sys2Proof.Machine

/-! ### One byte taken, one byte sent (R143, R146) -/

section

variable {p : DispatcherIn} (d : Dispatcher)

theorem Dispatcher.takeData_cwdata (b : Byte) (h : p.rxOk = true) :
    (d.takeData p b).cwdata = insertLane d.cwdata d.cidx b := by
  simp [takeData, h]

theorem Dispatcher.takeData_cidx (b : Byte) (h : p.rxOk = true) :
    (d.takeData p b).cidx = d.cidx + 1 := by
  simp only [takeData, h, if_true, nextLane_eq_add_one]

theorem Dispatcher.takeData_cst (b : Byte) (h : p.rxOk = true) :
    (d.takeData p b).cst = if d.cidx = 3 then .startTx else .recvData := by
  simp [takeData, h]

theorem Dispatcher.sendData_txDataR (h : p.txOk = true) :
    (d.sendData p).txDataR = byteLane d.crdata d.cidx := by
  simp [sendData, h]

theorem Dispatcher.sendData_crdata : (d.sendData p).crdata = d.crdata := by
  unfold sendData
  split_ifs <;> rfl

theorem Dispatcher.sendData_cidx (h : p.txOk = true) : (d.sendData p).cidx = d.cidx + 1 := by
  simp only [sendData, h, if_true, nextLane_eq_add_one]

theorem Dispatcher.sendData_cst (h : p.txOk = true) :
    (d.sendData p).cst = if d.cidx = 3 then .sendAck else .sendData := by
  simp [sendData, h]

end

/-! ### A host command's cycle in DISPATCH (R135 to R141) -/

theorem State.dispatcherOn_of_dispatch {s : State} (hc : s.dispatcher.cst = .dispatch)
    (code : Byte) (reg : Addr) (data : Data) (x : Dispatcher) :
    s.dispatcherOn code reg data x = x := by
  simp [State.dispatcherOn, Dispatcher.path, hc]

/-- Every effect of DISPATCH ends the pulses (R132). -/
theorem Dispatcher.Dispatched.pulses {d x : Dispatcher} (hx : d.Dispatched x) :
    x.rxAckR = false ∧ x.txStartR = false ∧ x.swR = false ∧ x.srR = false := by
  rcases hx with rfl | rfl | rfl | rfl | rfl | rfl <;> exact ⟨rfl, rfl, rfl, rfl⟩

/-- In DISPATCH a host command's cycle is the core's own with that command's effect, and only the
two power commands' effects set `power`. -/
theorem exec_eq_hostCycle_of_dispatch {s : State} {i : Instr} (hc : s.dispatcher.cst = .dispatch)
    (hi : i.port = .hostLink) :
    ∃ x, exec i s = s.hostCycle x ∧ s.dispatcher.Dispatched x ∧
      (i ≠ .powerOn → i ≠ .powerOff → x.power = s.dispatcher.power) := by
  have on := State.dispatcherOn_of_dispatch hc
  cases i <;> simp only [exec, execTest, execPowerOn, execPowerOff, execWriteReg, execReadReg,
    execIgnored, on]
  case test => exact ⟨_, rfl, .inl rfl, fun _ _ => rfl⟩
  case powerOn => exact ⟨_, rfl, .inr (.inl rfl), fun ne => absurd rfl ne⟩
  case powerOff => exact ⟨_, rfl, .inr (.inr (.inl rfl)), fun _ ne => absurd rfl ne⟩
  case writeReg => exact ⟨_, rfl, .inr (.inr (.inr (.inl rfl))), fun _ _ => rfl⟩
  case readReg => exact ⟨_, rfl, .inr (.inr (.inr (.inr (.inl rfl)))), fun _ _ => rfl⟩
  case ignored => exact ⟨_, rfl, .inr (.inr (.inr (.inr (.inr rfl)))), fun _ _ => rfl⟩
  all_goals cases hi

/-- While the dispatcher does not wait for it, a legal transactor is at rest and stays so: no frame,
no start, no `t_done` (R305, R307). -/
theorem CoreInv.transactorNext_of_ne_waitDone {s : State} (h : CoreInv s)
    (hc : s.dispatcher.cst ≠ .waitDone) :
    s.transactor.tst = .idle ∧ s.transactor.next s.cfg s.transactorIn = s.transactor := by
  have idle : s.transactor.tst = .idle := by_contra fun busy => hc (h.busyWaits busy)
  have noDone : s.transactor.tdone = false :=
    Bool.eq_false_iff.mpr fun done => hc (h.donePulse done).1
  obtain ⟨noWrite, noRead⟩ : s.dispatcher.swR = false ∧ s.dispatcher.srR = false :=
    Bool.or_eq_false_iff.mp (Bool.eq_false_iff.mpr fun pulse => hc (h.startPulse pulse).1)
  exact ⟨idle,
    (Transactor.next_of_no_start idle noWrite noRead).trans (Transactor.quiet_of_tdone noDone)⟩

/-! ### The obligations -/

/-- Settles O5: the frame's operands are the register byte's low bits and the word
of the four bytes. -/
theorem frameOperandsAreAssembled : Obligations.FrameOperandsAreAssembled := by
  intro cfg r b0 b1 b2 b3 hc
  obtain ⟨-, -, -, -, -, -, -, -, -, -, -, -, -, ⟨-, addr7⟩, -⟩ :=
    Config.accepted_bounds cfg hc
  have address := toNat_regOfByte cfg r addr7
  exact ⟨regOfByte cfg r, dataOfBytes b0 b1 b2 b3, rfl, rfl,
    fun seven => by simp [address, seven], address, toNat_dataOfBytes b0 b1 b2 b3⟩

/-- Settles O26: the lane counter runs from 0 to 3, so each byte meets its own lane once. -/
theorem fourBytesMakeAWord : Obligations.FourBytesMakeAWord := by
  intro p d b0 b1 b2 b3 h0
  refine ⟨fun rx => ?taken, fun tx => ?sent⟩
  case taken =>
    simp [Dispatcher.takeData_cwdata, Dispatcher.takeData_cidx, Dispatcher.takeData_cst, rx, h0,
      insertLane_all]
  case sent =>
    simp [Dispatcher.sendData_txDataR, Dispatcher.sendData_crdata, Dispatcher.sendData_cidx,
      Dispatcher.sendData_cst, tx, h0, bytesOfData]

/-- Settles O39: in DISPATCH a legal state has everything but the dispatcher at rest, and the
command's effect keeps to the dispatcher's frame. -/
theorem hostCommandFrameInDispatch : Obligations.HostCommandFrameInDispatch := by
  intro i s t h hc hi ht
  obtain ⟨x, hexec, hx, hpower⟩ := exec_eq_hostCycle_of_dispatch hc hi
  rw [hexec, State.hostCycle, State.lockstep_eq_next_iff] at ht
  obtain ⟨-, rfl⟩ := ht
  obtain ⟨idle, transactor⟩ := h.transactorNext_of_ne_waitDone (by simp [hc])
  have emitter := h.emitterNext_of_not_emitting (by simp [hc]) (by simp [Transactor.emitting, idle])
  have decoder := h.decoderNext_of_ne_rdata (by simp [idle])
  have frame := hx.frame hc
  obtain ⟨rxAck, txStart, startWrite, startRead⟩ := hx.pulses
  exact ⟨transactor, emitter, decoder, frame.cmd (by simp [hc]), frame.creg (by simp [hc]),
    frame.cwdata (by simp [hc]), frame.crdata (by simp [hc]),
    frame.cidx (by simp [hc]) (by simp [hc]) (by simp [hc]) (by simp [hc]),
    frame.txDataR (by simp [hc]) (by simp [hc]) (by simp [hc]), rxAck, txStart, startWrite,
    startRead, hpower⟩

end Sys2Proof.Machine

/-! SUPPORT. What a frame decodes to by its first byte (spec rules R80 to R86), one `finish` taking
one request off what a transaction owes (R95, R177 to R183), and the read register as the list of
the bits read (R96, R182); with the obligations on 30_encoding.md. -/

namespace Sys2Proof

/-! ### A host frame by its first byte (R80, R82, R84) -/

theorem isCommandCode_eq_false_iff (b : Byte) :
    isCommandCode b = false ↔
      b ≠ codeTest ∧ b ≠ codePowerOn ∧ b ≠ codePowerOff ∧ b ≠ codeWriteReg ∧ b ≠ codeReadReg := by
  simp [isCommandCode, and_assoc]

section

variable {cfg : Config}

theorem decodeFrame_of_no_code {c : Byte} (h : isCommandCode c = false) (rest : List Byte) :
    decodeFrame cfg (c :: rest) = .ok (.ignored c, rest) := by
  obtain ⟨test, powerOn, powerOff, writeReg, readReg⟩ := (isCommandCode_eq_false_iff c).mp h
  simp [decodeFrame, test, powerOn, powerOff, writeReg, readReg]

/-- Only the two register commands have operands (R80). -/
theorem decodeFrame_of_no_operands {c : Byte} (writeReg : c ≠ codeWriteReg)
    (readReg : c ≠ codeReadReg) (rest : List Byte) :
    ∃ i, decodeFrame cfg (c :: rest) = .ok (i, rest) := by
  simp only [decodeFrame, if_neg writeReg, if_neg readReg]
  split_ifs <;> exact ⟨_, rfl⟩

theorem decodeFrame_writeReg {ops : List Byte} (h : ops.length = 5) (rest : List Byte) :
    ∃ i, decodeFrame cfg (codeWriteReg :: (ops ++ rest)) = .ok (i, rest) := by
  match ops, h with
  | [_, _, _, _, _], _ => exact ⟨_, rfl⟩

theorem decodeFrame_readReg {ops : List Byte} (h : ops.length = 1) (rest : List Byte) :
    ∃ i, decodeFrame cfg (codeReadReg :: (ops ++ rest)) = .ok (i, rest) := by
  match ops, h with
  | [_], _ => exact ⟨_, rfl⟩

theorem decodeFrame_writeReg_incomplete {ops : List Byte} (h : ops.length < 5) :
    decodeFrame cfg (codeWriteReg :: ops) = .error .frameIncomplete := by
  match ops, h with
  | [], _ => rfl
  | [_], _ => rfl
  | [_, _], _ => rfl
  | [_, _, _], _ => rfl
  | [_, _, _, _], _ => rfl
  | _ :: _ :: _ :: _ :: _ :: _, h => simp only [List.length_cons] at h; omega

theorem decodeFrame_readReg_incomplete {ops : List Byte} (h : ops.length < 1) :
    decodeFrame cfg (codeReadReg :: ops) = .error .frameIncomplete := by
  obtain rfl := List.length_eq_zero_iff.mp (Nat.lt_one_iff.mp h)
  rfl

/-- A decoded frame is an instruction of the host link's rows, its register an address of
`ADDR_BITS` bits and its byte, where it is IGNORED, no command code. -/
theorem wellFormed_of_decodeFrame {bytes rest : List Byte} {i : Instr}
    (h : decodeFrame cfg bytes = .ok (i, rest)) :
    i.wellFormed cfg = true ∧ i.port = .hostLink := by
  unfold decodeFrame at h
  split at h
  · cases h
  next c operands =>
    split_ifs at h with test powerOn powerOff writeReg readReg
    case pos => cases h; exact ⟨rfl, rfl⟩
    case pos => cases h; exact ⟨rfl, rfl⟩
    case pos => cases h; exact ⟨rfl, rfl⟩
    case pos =>
      split at h <;> cases h
      exact ⟨decide_eq_true (toNat_regOfByte_lt cfg _), rfl⟩
    case pos =>
      split at h <;> cases h
      exact ⟨decide_eq_true (toNat_regOfByte_lt cfg _), rfl⟩
    case neg =>
      cases h
      have noCode := (isCommandCode_eq_false_iff c).mpr
        ⟨test, powerOn, powerOff, writeReg, readReg⟩
      exact ⟨by simp [Instr.wellFormed, noCode], rfl⟩

end

/-! ### What a port's word and an instruction's encoding decode to (R80 to R90) -/

theorem decode_encode {cfg : Config} {i : Instr} (h : i.wellFormed cfg = true) :
    decode cfg (encode cfg i) = .ok i := by
  cases i
  case ignored b =>
    have noCode : isCommandCode b = false := by simpa [Instr.wellFormed] using h
    simp [encode, decode, decodeHost, decodeFrame_of_no_code noCode]
  case writeReg r d =>
    have address := regOfByte_byteOfReg cfg r (of_decide_eq_true h)
    exact congrArg Except.ok (congrArg₂ Instr.writeReg address (dataOfBytes_byteLane d))
  case readReg r =>
    have address := regOfByte_byteOfReg cfg r (of_decide_eq_true h)
    exact congrArg (Except.ok ∘ Instr.readReg) address
  case greeting => exact if_pos rfl
  all_goals rfl

/-- With the 7 address bits of R8 every value of an address register is an address. -/
theorem Instr.wellFormed_of_addrBits {cfg : Config} (h : cfg.addrBits = 7) {i : Instr}
    (hi : ∀ b, i ≠ .ignored b) : i.wellFormed cfg = true := by
  have address (r : Addr) : r.toNat < 2 ^ cfg.addrBits := by rw [h]; exact r.isLt
  cases i
  case ignored b => exact absurd rfl (hi b)
  case writeReg r _ => exact decide_eq_true (address r)
  case readReg r => exact decide_eq_true (address r)
  all_goals rfl

theorem wellFormed_of_decode {cfg : Config} {w : PortWord} {i : Instr}
    (h : decode cfg w = .ok i) : i.wellFormed cfg = true ∧ i.port = w.port := by
  cases w <;> simp only [decode] at h
  case host bytes =>
    unfold decodeHost at h
    split at h <;> cases h
    next hframe => exact wellFormed_of_decodeFrame hframe
  case output b =>
    unfold decodeOutput at h
    split_ifs at h
    cases h
    exact ⟨rfl, rfl⟩
  case start code reg data =>
    unfold decodeStart at h
    split_ifs at h <;> cases h <;> exact ⟨rfl, rfl⟩
  case emit code =>
    unfold decodeEmit at h
    split_ifs at h <;> cases h <;> exact ⟨rfl, rfl⟩
  case dec code =>
    unfold decodeDec at h
    split_ifs at h
    cases h
    exact ⟨rfl, rfl⟩

end Sys2Proof

namespace Sys2Proof.Machine

/-! ### The bytes handed to ByteLink (R81, R133, R146, R147) -/

section

variable {c : Config} {p : DispatcherIn} {d : Dispatcher}

theorem Dispatcher.greet_txDataR_of_start (h : (d.greet c p).txStartR = true) :
    (d.greet c p).txDataR = c.greetingByte := by
  unfold greet at h ⊢
  split_ifs at h ⊢
  · rfl
  · simp at h

theorem Dispatcher.sendData_txDataR_of_start (h : (d.sendData p).txStartR = true) :
    (d.sendData p).txDataR = byteLane d.crdata d.cidx := by
  apply sendData_txDataR
  by_contra off
  simp [sendData, off] at h

theorem Dispatcher.sendAck_txDataR_of_start (h : (d.sendAck c p).txStartR = true) :
    (d.sendAck c p).txDataR = c.ackByte := by
  unfold sendAck at h ⊢
  split_ifs at h ⊢
  · rfl
  · simp at h

end

/-- No other state hands a byte over: the pulse ends (R132). -/
theorem State.dispatcherNext_txStartR_of_ne {s : State} (init : s.dispatcher.cst ≠ .init)
    (sendData : s.dispatcher.cst ≠ .sendData) (sendAck : s.dispatcher.cst ≠ .sendAck) :
    s.dispatcherNext.txStartR = false := by
  cases hc : s.dispatcher.cst
  case init => exact absurd hc init
  case sendData => exact absurd hc sendData
  case sendAck => exact absurd hc sendAck
  case dispatch =>
    rw [State.dispatcherNext_of_dispatch hc]
    exact (s.dispatcher.dispatchByCode_cases _).pulses.2.1
  case startTx => rw [State.dispatcherNext_of_startTx hc]; rfl
  case waitCmd =>
    rw [State.dispatcherNext_of_waitCmd hc, Dispatcher.takeCommand]
    split_ifs <;> rfl
  case recvReg =>
    rw [State.dispatcherNext_of_recvReg hc, Dispatcher.takeRegister]
    split_ifs <;> rfl
  case recvData =>
    rw [State.dispatcherNext_of_recvData hc, Dispatcher.takeData]
    split_ifs <;> rfl
  case waitDone =>
    rw [State.dispatcherNext_of_waitDone hc, Dispatcher.waitDone]
    split_ifs <;> rfl

/-- A byte is handed over in three states, and in each it is that state's own byte. -/
theorem State.dispatcherNext_txDataR_of_start {s : State}
    (h : s.dispatcherNext.txStartR = true) :
    (s.dispatcher.cst = .init ∧ s.dispatcherNext.txDataR = s.cfg.greetingByte) ∨
      (s.dispatcher.cst = .sendData ∧
        s.dispatcherNext.txDataR = byteLane s.dispatcher.crdata s.dispatcher.cidx) ∨
      (s.dispatcher.cst = .sendAck ∧ s.dispatcherNext.txDataR = s.cfg.ackByte) := by
  by_cases init : s.dispatcher.cst = .init
  · rw [State.dispatcherNext_of_init init] at h ⊢
    exact .inl ⟨init, Dispatcher.greet_txDataR_of_start h⟩
  by_cases sendData : s.dispatcher.cst = .sendData
  · rw [State.dispatcherNext_of_sendData sendData] at h ⊢
    exact .inr (.inl ⟨sendData, Dispatcher.sendData_txDataR_of_start h⟩)
  by_cases sendAck : s.dispatcher.cst = .sendAck
  · rw [State.dispatcherNext_of_sendAck sendAck] at h ⊢
    exact .inr (.inr ⟨sendAck, Dispatcher.sendAck_txDataR_of_start h⟩)
  · rw [State.dispatcherNext_txStartR_of_ne init sendData sendAck] at h
    exact absurd h Bool.false_ne_true

/-! ### The bits of a read (R96, R182) -/

theorem Transactor.readBits_append (c : Config) (t : Transactor) (bits : List (Bool × Bool))
    (b : Bool × Bool) :
    t.readBits c (bits ++ [b]) = (t.readBits c bits).afterRdata c b.1 b.2 := by
  simp [readBits]

/-- The read register holds the bits read with the last at the low end: it is the list of them, read
backwards. -/
theorem Transactor.getLsbD_readBits {c : Config} (hc : c.dataBits ≤ 32) (t : Transactor)
    (bits : List (Bool × Bool)) {k : Nat} (hk : k < c.dataBits) (hlen : k < bits.length) :
    (t.readBits c bits).rshift.getLsbD k = (bits.map Prod.fst).reverse.getD k false := by
  induction bits using List.reverseRecOn generalizing k with
  | nil => simp at hlen
  | append_singleton bits b ih =>
    rw [readBits_append, List.map_append, List.map_singleton, List.reverse_append]
    change (shiftIn c (t.readBits c bits).rshift b.1).getLsbD k = _
    rw [getLsbD_shiftIn _ _ _ _ hc]
    cases k with
    | zero => simp [hk]
    | succ k =>
      rw [List.length_append, List.length_singleton] at hlen
      simp [hk, ih (by omega : k < c.dataBits) (by omega)]

/-- After a bit read the read register holds nothing beyond `DATA_BITS`. -/
theorem Transactor.toNat_rshift_readBits_lt (c : Config) (t : Transactor)
    {bits : List (Bool × Bool)} (h : bits ≠ []) :
    (t.readBits c bits).rshift.toNat < 2 ^ c.dataBits := by
  rw [← List.dropLast_append_getLast h, readBits_append]
  exact toNat_shiftIn_lt c _ _

/-- A whole word of bits read replaces the read register: the first bit is its top bit. -/
theorem Transactor.getLsbD_readBits_word {c : Config} (hc : c.accepted = true) (t : Transactor)
    {bits : List (Bool × Bool)} (hlen : bits.length = c.dataBits) (k : Nat) :
    (t.readBits c bits).rshift.getLsbD k =
      (decide (k < c.dataBits) && (bits.map Prod.fst).getD (c.dataBits - 1 - k) false) := by
  obtain ⟨-, -, -, -, -, -, -, -, -, -, -, -, -, -, ⟨data1, data32⟩⟩ :=
    Config.accepted_bounds c hc
  by_cases hk : k < c.dataBits
  · rw [getLsbD_readBits data32 t bits hk (by omega),
      List.getD_reverse k (by simpa [hlen] using hk)]
    simp [hk, hlen]
  · have nonempty : bits ≠ [] := by rintro rfl; simp at hlen; omega
    have below := toNat_rshift_readBits_lt c t nonempty
    have le : 2 ^ c.dataBits ≤ 2 ^ k := Nat.pow_le_pow_right (by omega) (by omega)
    rw [BitVec.getLsbD, Nat.testBit_lt_two_pow (by omega)]
    simp [hk]

/-- The error flag collects the errors of the bits read (R182, R188). -/
theorem Transactor.readBits_rerr (c : Config) (t : Transactor) (bits : List (Bool × Bool)) :
    (t.readBits c bits).rerr = (t.rerr || bits.any Prod.snd) := by
  induction bits using List.reverseRecOn with
  | nil => simp [readBits]
  | append_singleton bits b ih =>
    rw [readBits_append]
    simp [afterRdata, ih, Bool.or_assoc]

/-- The bits of a word, the most significant first, are read back as the word. -/
theorem Transactor.toNat_readBits_of_word {c : Config} (hc : c.accepted = true) (t : Transactor)
    (d : Data) {errors : List Bool} (hlen : errors.length = c.dataBits) :
    (t.readBits c (((List.range c.dataBits).map fun j =>
      d.getLsbD (c.dataBits - 1 - j)).zip errors)).rshift.toNat = d.toNat % 2 ^ c.dataBits := by
  apply Nat.eq_of_testBit_eq
  intro k
  rw [Nat.testBit_mod_two_pow, BitVec.testBit_toNat, BitVec.testBit_toNat,
    getLsbD_readBits_word hc t (by simp [hlen]), List.map_fst_zip (by simp [hlen])]
  by_cases hk : k < c.dataBits
  · have index : c.dataBits - 1 - (c.dataBits - 1 - k) = k := by omega
    have inside : c.dataBits - 1 - k < c.dataBits := by omega
    simp [hk, List.getD_eq_getElem?_getD, inside, index]
  · simp [hk]

/-! ### What a transaction owes (R95, R177 to R183) -/

theorem Transactor.acceptWrite_remaining (c : Config) (t : Transactor) (reg : Addr) (data : Data) :
    (t.acceptWrite reg data).remaining c = writeFrame c reg data := rfl

theorem Transactor.acceptRead_remaining (c : Config) (t : Transactor) (reg : Addr) :
    (t.acceptRead reg).remaining c = readFrame c reg := rfl

/-- Issuing the request and waiting for its `finish` leave what is owed alone (R177). -/
theorem Transactor.remaining_eq_of_frame (c : Config) {t u : Transactor} (htst : u.tst = t.tst)
    (hidx : u.idx = t.idx) (hop : u.op = t.op) (htreg : u.treg = t.treg)
    (htwdata : u.twdata = t.twdata) : u.remaining c = t.remaining c := by
  simp only [remaining, tailAfterAddr, htst, hidx, hop, htreg, htwdata]

/-- The symbol of a bit is spelled by its kind (R89). -/
theorem decode_bitKind (c : Config) (b : Bool) :
    decode c (.emit (1#1 ++ bitKind b)) = .ok (bitInstr b) := by
  cases b <;> rfl

/-- The symbol asked for is the first request owed (R171, R178 to R183). -/
theorem Transactor.decode_emitKind (c : Config) {t : Transactor} (h : t.emitting = true) :
    ∃ i, decode c (.emit (1#1 ++ t.emitKind)) = .ok i ∧ (t.remaining c).head? = some i := by
  cases ht : t.tst <;> simp only [emitting, ht, Bool.false_eq_true] at h <;>
    simp only [emitKind, remaining, ht]
  case start => exact ⟨_, rfl, rfl⟩
  case addr => exact ⟨_, decode_bitKind c _, rfl⟩
  case dir => exact ⟨_, decode_bitKind c _, rfl⟩
  case wdata => exact ⟨_, decode_bitKind c _, rfl⟩
  case stop => exact ⟨_, rfl, rfl⟩

/-- A bit index above 0 leaves one bit fewer. -/
theorem toNat_pred_add_one {v : BitVec 5} (h : v ≠ 0) : (v - 1).toNat + 1 = v.toNat := by
  bv_omega

/-- The bits of a whole word, counted from the top bit's index. -/
theorem toNat_topIndex_add_one {n : Nat} (h1 : 1 ≤ n) (h : n ≤ 32) :
    (BitVec.ofNat 5 (n - 1)).toNat + 1 = n := by
  rw [toNat_ofNat_of_lt (by omega)]
  omega

section

variable {c : Config} {t : Transactor}

theorem Transactor.remaining_of_start (h : t.tst = .start) :
    t.remaining c =
      .emitStart :: (bitsDown t.treg.getLsbD c.addrBits ++ t.tailAfterAddr c) := by
  simp only [remaining, h]

theorem Transactor.remaining_of_addr (h : t.tst = .addr) :
    t.remaining c = bitsDown t.treg.getLsbD (t.idx.toNat + 1) ++ t.tailAfterAddr c := by
  simp only [remaining, h]

theorem Transactor.remaining_of_dir (h : t.tst = .dir) :
    t.remaining c = t.tailAfterAddr c := by
  simp only [remaining, h]

theorem Transactor.remaining_of_wdata (h : t.tst = .wdata) :
    t.remaining c = bitsDown t.twdata.getLsbD (t.idx.toNat + 1) ++ [.emitStop] := by
  simp only [remaining, h]

theorem Transactor.remaining_of_rdata (h : t.tst = .rdata) :
    t.remaining c = List.replicate (t.idx.toNat + 1) .readBit ++ [.emitStop] := by
  simp only [remaining, h]

theorem Transactor.afterStart_remaining (hc : c.accepted = true) :
    (t.afterStart c).remaining c = bitsDown t.treg.getLsbD c.addrBits ++ t.tailAfterAddr c := by
  obtain ⟨-, -, -, -, -, -, -, -, -, -, -, -, -, ⟨addr1, addr7⟩, -⟩ := Config.accepted_bounds c hc
  rw [remaining_of_addr rfl]
  change bitsDown t.treg.getLsbD ((BitVec.ofNat 5 (c.addrBits - 1)).toNat + 1) ++ _ = _
  rw [toNat_topIndex_add_one addr1 (by omega)]
  rfl

theorem Transactor.afterAddr_remaining (h : t.tst = .addr) :
    t.afterAddr.remaining c = bitsDown t.treg.getLsbD t.idx.toNat ++ t.tailAfterAddr c := by
  unfold afterAddr
  split_ifs with h0
  · rw [h0]
    rfl
  · rw [← toNat_pred_add_one h0]
    exact remaining_of_addr h

theorem Transactor.afterDir_remaining (hc : c.accepted = true) :
    (t.afterDir c).remaining c =
      (if t.op then bitsDown t.twdata.getLsbD c.dataBits else List.replicate c.dataBits .readBit) ++
        [.emitStop] := by
  obtain ⟨-, -, -, -, -, -, -, -, -, -, -, -, -, -, ⟨data1, data32⟩⟩ :=
    Config.accepted_bounds c hc
  have top := toNat_topIndex_add_one data1 data32
  cases hop : t.op
  · rw [remaining_of_rdata (by simp [afterDir, hop])]
    simp only [afterDir, top, Bool.false_eq_true, if_false]
  · rw [remaining_of_wdata (by simp [afterDir, hop])]
    simp only [afterDir, top, if_true, quiet_twdata]

theorem Transactor.afterWdata_remaining (h : t.tst = .wdata) :
    t.afterWdata.remaining c = bitsDown t.twdata.getLsbD t.idx.toNat ++ [.emitStop] := by
  unfold afterWdata
  split_ifs with h0
  · rw [h0]
    rfl
  · rw [← toNat_pred_add_one h0]
    exact remaining_of_wdata h

theorem Transactor.afterRdata_remaining (bit err : Bool) :
    (t.afterRdata c bit err).remaining c = List.replicate t.idx.toNat .readBit ++ [.emitStop] := by
  unfold afterRdata
  split_ifs with h0
  · rw [h0]
    rfl
  · rw [← toNat_pred_add_one h0]
    exact remaining_of_rdata rfl

/-- A `finish` takes exactly the first request off what is owed (R178 to R183). -/
theorem Transactor.advance_remaining (hc : c.accepted = true) (p : TransactorIn)
    (ht : t.tst ≠ .idle) : (t.advance c p).remaining c = (t.remaining c).tail := by
  cases hs : t.tst <;> simp only [advance, hs]
  case idle => exact absurd hs ht
  case start => rw [afterStart_remaining hc, remaining_of_start hs, List.tail_cons]
  case addr =>
    rw [afterAddr_remaining hs, remaining_of_addr hs, bitsDown, List.cons_append, List.tail_cons]
  case dir => rw [afterDir_remaining hc, remaining_of_dir hs, tailAfterAddr, List.tail_cons]
  case wdata =>
    rw [afterWdata_remaining hs, remaining_of_wdata hs, bitsDown, List.cons_append, List.tail_cons]
  case rdata =>
    rw [afterRdata_remaining, remaining_of_rdata hs, List.replicate_succ, List.cons_append,
      List.tail_cons]
  case stop => simp only [afterStop, remaining, hs, List.tail_cons]

end

/-! ### The obligations -/

/-- Settles O1: the operands of a frame are read back by `regOfByte_byteOfReg` and
`dataOfBytes_byteLane`, and the codes are distinct. -/
theorem decodeOfEncodeIsTheInstruction : Obligations.DecodeOfEncodeIsTheInstruction :=
  fun _ _ => ⟨decode_encode, fun seven hi => Instr.wellFormed_of_addrBits seven hi⟩

/-- Settles O2: port by port, each answer of the decoder is a row of that port. -/
theorem decodedInstructionBelongsToItsPort : Obligations.DecodedInstructionBelongsToItsPort :=
  fun _ _ _ h => wellFormed_of_decode h

/-- Settles O3: WRITE_REG, READ_REG, and every other first byte. -/
theorem firstByteFixesFrameLength : Obligations.FirstByteFixesFrameLength := by
  intro cfg c n hn
  by_cases writeReg : c = codeWriteReg
  · subst writeReg
    obtain rfl : n = 5 := hn
    exact ⟨fun _ rest h => decodeFrame_writeReg h rest,
      fun _ h => decodeFrame_writeReg_incomplete h⟩
  by_cases readReg : c = codeReadReg
  · subst readReg
    obtain rfl : n = 1 := hn
    exact ⟨fun _ rest h => decodeFrame_readReg h rest,
      fun _ h => decodeFrame_readReg_incomplete h⟩
  · obtain rfl : n = 0 := hn.trans ((if_neg writeReg).trans (if_neg readReg))
    refine ⟨fun ops rest h => ?_, fun _ h => absurd h (Nat.not_lt_zero _)⟩
    obtain rfl := List.length_eq_zero_iff.mp h
    exact decodeFrame_of_no_operands writeReg readReg rest

/-- Settles O4: the first byte is none of the five codes. -/
theorem otherFirstBytesAreIgnoredFrames : Obligations.OtherFirstBytesAreIgnoredFrames :=
  fun _ c rest test powerOff powerOn readReg writeReg => decodeFrame_of_no_code
    ((isCommandCode_eq_false_iff c).mpr ⟨test, powerOn, powerOff, writeReg, readReg⟩) rest

/-- Settles O6: each word is the encoding of its instruction, and is read back as such. -/
theorem writtenOutWordsDecode : Obligations.WrittenOutWordsDecode := fun clk power =>
  have back (i : Instr) (h : i.wellFormed (Config.source clk power) = true) :=
    decode_encode (cfg := Config.source clk power) (i := i) h
  ⟨back .test rfl, back .powerOn rfl, back .powerOff rfl,
    back (.writeReg 0x7A#7 0x55AACA15#32) rfl, back (.readReg 0x35#7) rfl,
    back (.ignored 0x78#8) rfl, back .greeting rfl,
    back (.startWrite 0x7A#7 0x55AACA15#32) rfl, back (.startRead 0x35#7) rfl,
    back .emitBit0 rfl, back .emitStop rfl, back .readBit rfl⟩

/-- Settles O48: each of the three states hands over its own byte, and reset hands over none. -/
theorem onlyGreetingResultAndAckAreSent : Obligations.OnlyGreetingResultAndAckAreSent := by
  intro s t h start
  obtain ⟨-, rfl⟩ | ⟨-, rfl⟩ := step_next_reset_or_cycle h
  · exact absurd start Bool.false_ne_true
  obtain ⟨init, byte⟩ | ⟨sendData, byte⟩ | ⟨sendAck, byte⟩ :=
    State.dispatcherNext_txDataR_of_start start
  · exact .inl ⟨init, byte, fun _ _ hs => byte.trans (by rw [hs]; rfl)⟩
  · exact .inr (.inl ⟨sendData, byte⟩)
  · exact .inr (.inr ⟨sendAck, byte, fun _ _ hs => byte.trans (by rw [hs]; rfl)⟩)

/-- Settles O55: the read register is the list of the bits read, and the flag their disjunction. -/
theorem bitsReadMakeTheWord : Obligations.BitsReadMakeTheWord := by
  intro c t hc
  refine ⟨fun bits => ⟨?bits, t.readBits_rerr c bits, ?read⟩, ?word, fun _ _ => ⟨rfl, rfl⟩⟩
  case bits => exact fun hlen => t.getLsbD_readBits_word hc hlen
  case read => exact fun reg => ⟨(t.acceptRead reg).readBits_rerr c bits, rfl⟩
  case word => exact fun d _ hlen => t.toNat_readBits_of_word hc d hlen

/-- Settles O56: a start loads its frame, the request made is the head of what is owed, and only a
`finish` takes it off. -/
theorem transactionMakesItsFrame : Obligations.TransactionMakesItsFrame := by
  intro c t p finish hc hfin
  obtain rfl : finish = t.finishSeen p := hfin
  refine ⟨?write, ?read, ?symbol, ?bitRead, ?finished, ?waiting⟩
  case write =>
    intro idle hw hr
    rw [Transactor.next_of_startWrite idle hw hr, Transactor.acceptWrite_remaining]
  case read =>
    intro idle hr hw
    rw [Transactor.next_of_startRead idle hw hr, Transactor.acceptRead_remaining]
  case symbol =>
    intro req
    exact Transactor.decode_emitKind c (Bool.and_eq_true_iff.mp req).1
  case bitRead =>
    intro req
    obtain ⟨rdata, -⟩ : t.tst = .rdata ∧ t.issued = false := by simpa [Transactor.decReq] using req
    simp [Transactor.remaining, rdata, List.replicate_succ]
  case finished =>
    intro busy issued seen
    rw [Transactor.next_of_finish busy issued seen]
    exact ⟨Transactor.advance_remaining hc p busy, (Transactor.advance_cases c p busy).1⟩
  case waiting =>
    intro busy unfinished
    cases issued : t.issued
    · rw [Transactor.next_of_request busy issued]
      exact ⟨Transactor.remaining_eq_of_frame c rfl rfl rfl rfl rfl, rfl⟩
    · have unseen : t.finishSeen p = false := by simpa [issued] using unfinished
      rw [Transactor.next_of_waiting busy issued unseen]
      exact ⟨Transactor.remaining_eq_of_frame c rfl rfl rfl rfl rfl, issued⟩

/-- Settles O57: the address and the data bit by bit, the most significant first. -/
theorem sourceScenarioFrame : Obligations.SourceScenarioFrame := by
  intro clk power
  have address : bitsDown (0x7A#7).getLsbD 7 =
      [true, true, true, true, false, true, false].map bitInstr := rfl
  have data : bitsDown (0x55AACA15#32).getLsbD 32 =
      [false, true, false, true, false, true, false, true,
       true, false, true, false, true, false, true, false,
       true, true, false, false, true, false, true, false,
       false, false, false, true, false, true, false, true].map bitInstr := rfl
  change Instr.emitStart :: (bitsDown (0x7A#7).getLsbD 7 ++
    (bitInstr true :: (bitsDown (0x55AACA15#32).getLsbD 32 ++ [.emitStop]))) = _
  rw [address, data]
  simp

end Sys2Proof.Machine

/-! SUPPORT. How the parts of the core go together in a cycle: the lockstep cycle and its one fault
(spec rules R110, R112, R175), the tick sources' arithmetic (R118, R120), the byte lanes bit by bit
(R125), the ByteLink pulses and what they need (R123, R132), a symbol phase over its ticks (R122,
R210 to R212) and the level of the line (R116); with the obligations on 40_composition.md. -/

namespace Sys2Proof

/-! ### Byte lanes, bit by bit (R125) -/

/-- The lane mask has its eight low bits set. -/
theorem getLsbD_laneMask (k : Nat) : (0xFF#32).getLsbD k = decide (k < 8) := by
  have mask : 0xFF#32 = (BitVec.allOnes 8).setWidth 32 := rfl
  rw [mask, BitVec.getLsbD_setWidth, BitVec.getLsbD_allOnes]
  simp only [Bool.and_eq_right_iff_imp, decide_eq_true_eq]
  omega

theorem getLsbD_byteLane (v : Data) (i : BitVec 2) (j : Nat) :
    (byteLane v i).getLsbD j = (decide (j < 8) && v.getLsbD (8 * i.toNat + j)) := by
  rw [byteLane, BitVec.getLsbD_setWidth, BitVec.getLsbD_ushiftRight]

/-- The lane of a bit is its number's quotient by 8. -/
theorem getLsbD_insertLane (v : Data) (i : BitVec 2) (b : Byte) {k : Nat} (hk : k < 32) :
    (insertLane v i b).getLsbD k =
      if k / 8 = i.toNat then b.getLsbD (k % 8) else v.getLsbD k := by
  simp only [insertLane, BitVec.getLsbD_or, BitVec.getLsbD_and, BitVec.getLsbD_not,
    BitVec.getLsbD_shiftLeft, BitVec.getLsbD_setWidth, getLsbD_laneMask]
  split_ifs with lane
  · have bit : k - 8 * i.toNat = k % 8 := by omega
    have above : ¬k < 8 * i.toNat := by omega
    have inByte : k % 8 < 8 := by omega
    have inWord : k % 8 < 32 := by omega
    simp [hk, above, bit, inByte, inWord]
  · by_cases above : k < 8 * i.toNat
    · simp [hk, above]
    · have high : 8 ≤ k - 8 * i.toNat := by omega
      simp [hk, above, high]

end Sys2Proof

namespace Sys2Proof.Machine

/-! ### The lockstep cycle and its fault (R112, R175) -/

theorem Transactor.conflict_iff (t : Transactor) (p : TransactorIn) :
    t.conflict p = true ↔ t.tst = .idle ∧ p.startWrite = true ∧ p.startRead = true := by
  simp [conflict, and_assoc]

/-- Without X3 a step is the whole cycle. -/
theorem step_of_noConflict {s : State} (h : s.runs = true) (hn : s.noConflict = true) :
    step s = .next s.afterCycle := by
  have hc : s.transactor.conflict s.transactorIn = false := by simpa [State.noConflict] using hn
  rw [step_of_runs h, State.cycle, State.lockstep_eq_next_iff]
  exact ⟨hc, rfl⟩

/-! ### The tick sources (R118, R120) -/

theorem TickSource.tick_eq (rate clk : Nat) (t : TickSource) :
    t.tick rate clk = decide (t.acc + rate ≥ clk) := rfl

theorem TickSource.next_acc_eq (rate clk : Nat) (t : TickSource) :
    (t.next rate clk).acc =
      if t.acc + rate ≥ clk then t.acc + rate - clk else t.acc + rate := by
  simp only [next, tick_eq, decide_eq_true_eq]
  split_ifs <;> rfl

section

variable {rate clk : Nat} {t : TickSource}

theorem TickSource.after_acc_lt (hr : rate ≤ clk) (h : t.acc < clk) (n : Nat) :
    (t.after rate clk n).acc < clk := by
  induction n with
  | zero => exact h
  | succ n ih => exact (next_acc rate clk (t.after rate clk n) hr ih).1

/-- A tick takes one clock rate out of the accumulator: the ticks so far and what stands in it add up
to the cycles' rates. -/
theorem TickSource.mul_count_add_acc (hr : rate ≤ clk) (h : t.acc < clk) (n : Nat) :
    clk * t.count rate clk n + (t.after rate clk n).acc = t.acc + n * rate := by
  induction n with
  | zero => simp [after, count]
  | succ n total =>
    obtain ⟨-, wraps, adds⟩ := next_acc rate clk _ hr (after_acc_lt hr h n)
    simp only [after, count, Nat.mul_add, Nat.succ_mul]
    cases tick : (t.after rate clk n).tick rate clk with
    | true =>
      have wrapped := wraps tick
      simp only [if_true]
      omega
    | false =>
      have added := adds tick
      simp only [Bool.false_eq_true, if_false]
      omega

end

/-! ### The pulses (R123, R132) -/

section

variable {c : Config} {p : DispatcherIn} (d : Dispatcher)

theorem Dispatcher.takeCommand_rxAckR (b : Byte) : (d.takeCommand p b).rxAckR = p.rxOk := by
  unfold takeCommand; split_ifs with rx <;> simp [rx]

theorem Dispatcher.takeRegister_rxAckR (w : Bool) (r : Addr) :
    (d.takeRegister p w r).rxAckR = p.rxOk := by
  unfold takeRegister; split_ifs with rx <;> simp [rx]

theorem Dispatcher.takeData_rxAckR (b : Byte) : (d.takeData p b).rxAckR = p.rxOk := by
  unfold takeData; split_ifs with rx <;> simp [rx]

theorem Dispatcher.greet_txStartR : (d.greet c p).txStartR = (p.txOk && p.tReady) := by
  unfold greet; split_ifs with tx <;> simp [tx]

theorem Dispatcher.sendData_txStartR : (d.sendData p).txStartR = p.txOk := by
  unfold sendData; split_ifs with tx <;> simp [tx]

theorem Dispatcher.sendAck_txStartR : (d.sendAck c p).txStartR = p.txOk := by
  unfold sendAck; split_ifs with tx <;> simp [tx]

end

section

variable {s : State}

/-- A byte is acknowledged only where one is awaited, and only under R132's guard. -/
theorem State.rxOk_of_dispatcherNext_rxAckR (h : s.dispatcherNext.rxAckR = true) :
    (s.dispatcher.cst = .waitCmd ∨ s.dispatcher.cst = .recvReg ∨ s.dispatcher.cst = .recvData) ∧
      s.rxOk = true := by
  cases hc : s.dispatcher.cst
  case waitCmd =>
    rw [State.dispatcherNext_of_waitCmd hc, Dispatcher.takeCommand_rxAckR] at h
    exact ⟨.inl rfl, h⟩
  case recvReg =>
    rw [State.dispatcherNext_of_recvReg hc, Dispatcher.takeRegister_rxAckR] at h
    exact ⟨.inr (.inl rfl), h⟩
  case recvData =>
    rw [State.dispatcherNext_of_recvData hc, Dispatcher.takeData_rxAckR] at h
    exact ⟨.inr (.inr rfl), h⟩
  case dispatch =>
    rw [State.dispatcherNext_of_dispatch hc, (s.dispatcher.dispatchByCode_cases _).pulses.1] at h
    cases h
  case init =>
    rw [State.dispatcherNext_of_init hc, Dispatcher.greet] at h
    split_ifs at h <;> cases h
  case startTx =>
    rw [State.dispatcherNext_of_startTx hc] at h
    cases h
  case waitDone =>
    rw [State.dispatcherNext_of_waitDone hc, Dispatcher.waitDone] at h
    split_ifs at h <;> cases h
  case sendData =>
    rw [State.dispatcherNext_of_sendData hc, Dispatcher.sendData] at h
    split_ifs at h <;> cases h
  case sendAck =>
    rw [State.dispatcherNext_of_sendAck hc, Dispatcher.sendAck] at h
    split_ifs at h <;> cases h

/-- A byte is handed over only under R132's guard. -/
theorem State.txOk_of_dispatcherNext_txStartR (h : s.dispatcherNext.txStartR = true) :
    s.txOk = true := by
  obtain ⟨hc, -⟩ | ⟨hc, -⟩ | ⟨hc, -⟩ := State.dispatcherNext_txDataR_of_start h
  · rw [State.dispatcherNext_of_init hc, Dispatcher.greet_txStartR] at h
    exact (Bool.and_eq_true_iff.mp h).1
  · rwa [State.dispatcherNext_of_sendData hc, Dispatcher.sendData_txStartR] at h
  · rwa [State.dispatcherNext_of_sendAck hc, Dispatcher.sendAck_txStartR] at h

/-- An acknowledgement blocks the next cycle's (R132). -/
theorem State.dispatcherNext_rxAckR_of_ack (h : s.dispatcher.rxAckR = true) :
    s.dispatcherNext.rxAckR = false := by
  refine Bool.eq_false_iff.mpr fun again => ?_
  simpa [State.rxOk, h] using (State.rxOk_of_dispatcherNext_rxAckR again).2

/-- A byte handed over blocks the next cycle's (R132). -/
theorem State.dispatcherNext_txStartR_of_start (h : s.dispatcher.txStartR = true) :
    s.dispatcherNext.txStartR = false := by
  refine Bool.eq_false_iff.mpr fun again => ?_
  simpa [State.txOk, h] using State.txOk_of_dispatcherNext_txStartR again

end

/-- In IDLE the transactor ends its `done` pulse, whether a start is accepted or not (R172). -/
theorem Transactor.next_tdone_of_idle {t : Transactor} (h : t.tst = .idle) (c : Config)
    (p : TransactorIn) : (t.next c p).tdone = false := by
  obtain e | ⟨-, e | e⟩ | ⟨ne, -⟩ | ⟨ne, -⟩ := t.next_cases c p
  · rw [e]; rfl
  · rw [e]; rfl
  · rw [e]; rfl
  · exact absurd h ne
  · exact absurd h ne

/-- A request is made once: the cycle that makes it sets `issued` (R177). -/
theorem Transactor.next_issued_of_request {t : Transactor} (c : Config) (p : TransactorIn)
    (h : t.emitReq = true ∨ t.decReq = true) : (t.next c p).issued = true := by
  obtain ⟨busy, fresh⟩ : t.tst ≠ .idle ∧ t.issued = false := by
    rcases h with h | h
    · obtain ⟨emitting, fresh⟩ := Bool.and_eq_true_iff.mp h
      exact ⟨ne_idle_of_emitting emitting, by simpa using fresh⟩
    · obtain ⟨rdata, fresh⟩ : t.tst = .rdata ∧ t.issued = false := by simpa [decReq] using h
      exact ⟨by simp [rdata], fresh⟩
  rw [next_of_request busy fresh]

theorem Transactor.no_request_of_issued {t : Transactor} (h : t.issued = true) :
    t.emitReq = false ∧ t.decReq = false := by
  simp [emitReq, decReq, h]

/-! ### A symbol phase over its ticks (R122, R210 to R212) -/

theorem tickCount_append_singleton (ticks : List Bool) (k : Bool) :
    tickCount (ticks ++ [k]) = tickCount ticks + k.toNat := by
  cases k <;> simp [tickCount]

theorem BitEmitter.over_append_singleton (c : Config) (e : BitEmitter) (ticks : List Bool)
    (k : Bool) : e.over c (ticks ++ [k]) = (e.over c ticks).phase c false k := by
  simp [BitEmitter.over]

section

variable {c : Config} {e : BitEmitter}

/-- A cycle without a tick leaves a symbol's phase and its count alone. -/
theorem BitEmitter.phase_of_no_tick (h : e.inSymbol = true) (m : Bool) :
    e.phase c m false = e.quiet := by
  obtain he | he | he := e.inSymbol_iff.mp h <;> simp [phase, he, space, mark, stop]

/-- A tick that is not the phase's last takes one off the count. -/
theorem BitEmitter.phase_of_tick (h : e.inSymbol = true) (h1 : e.bcnt ≠ 1) (m : Bool) :
    e.phase c m true = { e.quiet with bcnt := e.bcnt - 1 } := by
  obtain he | he | he := e.inSymbol_iff.mp h <;>
    simp only [phase, he, space, mark, stop, if_true, if_neg h1]

/-- The last tick of SPACE loads MARK. -/
theorem BitEmitter.phase_of_last_tick_space (he : e.est = .space) (h1 : e.bcnt = 1) (m : Bool) :
    e.phase c m true = { e.quiet with est := .mark, bcnt := BitVec.ofNat 5 c.markTicks } := by
  simp [phase, he, space, h1]

/-- The last tick of MARK and of STOP finishes the symbol. -/
theorem BitEmitter.phase_of_last_tick (h : e.inSymbol = true) (hs : e.est ≠ .space)
    (h1 : e.bcnt = 1) (m : Bool) :
    e.phase c m true = { e.quiet with est := .idle, efin := true } := by
  obtain he | he := (e.inSymbol_iff.mp h).resolve_left hs <;> simp [phase, he, mark, stop, h1]

/-- Before its last tick a symbol's phase goes on, its count less the ticks so far. -/
theorem BitEmitter.over_of_tickCount_lt (h : e.inSymbol = true) {ticks : List Bool}
    (hlt : tickCount ticks < e.bcnt.toNat) :
    (e.over c ticks).est = e.est ∧
      (e.over c ticks).bcnt.toNat = e.bcnt.toNat - tickCount ticks := by
  induction ticks using List.reverseRecOn with
  | nil => exact ⟨rfl, rfl⟩
  | append_singleton ticks k ih =>
    rw [tickCount_append_singleton] at hlt ⊢
    obtain ⟨est, bcnt⟩ := ih (by omega)
    have sym : (e.over c ticks).inSymbol = true := by rwa [inSymbol, est]
    rw [over_append_singleton]
    cases k with
    | false => simpa [phase_of_no_tick sym] using ⟨est, bcnt⟩
    | true =>
      simp only [Bool.toNat_true] at hlt ⊢
      have notLast : (e.over c ticks).bcnt ≠ 1 := by bv_omega
      rw [phase_of_tick sym notLast]
      exact ⟨est, by bv_omega⟩

end

/-! ### The level of the line (R115, R116) -/

/-- A released line is high unless the target pulls it low. -/
theorem State.swioIn_of_released {s : State} (h : s.emitter.swioOe = false) :
    s.swioIn = !s.inputs.targetLow := by
  simp [State.swioIn, BitEmitter.line, h]

theorem State.swioIn_of_drivingLow {s : State} (h : s.emitter.swioOe = true)
    (ho : s.emitter.swioOut = false) : s.swioIn = false := by
  simp [State.swioIn, BitEmitter.line, h, ho]

/-- Where the target does not pull, the driven level is read. -/
theorem State.swioIn_of_drivingHigh {s : State} (h : s.emitter.swioOe = true)
    (ho : s.emitter.swioOut = true) (ht : s.inputs.targetLow = false) : s.swioIn = true := by
  simp [State.swioIn, BitEmitter.line, h, ho, ht]

/-! ### The obligations -/

/-- Settles O7: the step and the instruction of every port are the plain cycle. -/
theorem stepRunsAnyCarriedInstruction : Obligations.StepRunsAnyCarriedInstruction := by
  intro s p w i hruns hword hdecode
  have carried : s.carried p = some i := by simp [State.carried, hword, decode?, hdecode]
  rw [step_of_runs hruns, exec_eq_cycle_of_carried carried]

/-- Settles O20: the level by what the core drives. -/
theorem lineLevelFollowsItsDrivers : Obligations.LineLevelFollowsItsDrivers := by
  intro s
  refine ⟨State.swioIn_of_released, fun driven free => ?_, State.swioIn_of_drivingLow⟩
  cases out : s.emitter.swioOut with
  | false => exact State.swioIn_of_drivingLow driven out
  | true => exact State.swioIn_of_drivingHigh driven out free

/-- Settles O9: the step is the plain cycle, and X3 its only fault. -/
theorem stepIsOneLockstepCycle : Obligations.StepIsOneLockstepCycle := by
  intro s hruns
  rw [step_of_runs hruns, State.cycle, State.lockstep]
  exact if_congr (s.transactor.conflict_iff s.transactorIn) rfl rfl

/-- Settles O13: each source's block of R118, with the rates of R119. -/
theorem tickSourcesAccumulate : Obligations.TickSourcesAccumulate := fun s hruns hn =>
  ⟨s.afterCycle, step_of_noConflict hruns hn, s.ems.next_acc_eq _ _, s.ebt.next_acc_eq _ _,
    s.dbt.next_acc_eq _ _, s.ems.tick_eq _ _, s.ebt.tick_eq _ _, s.dbt.tick_eq _ _⟩

/-- Settles O15: bit `k` lies in lane `k / 8`. -/
theorem laneInsertReplacesOneLane : Obligations.LaneInsertReplacesOneLane := fun v i b _ hk =>
  ⟨getLsbD_insertLane v i b hk, fun j hj => by
    rw [getLsbD_byteLane, decide_eq_true hj, Bool.true_and]⟩

/-- Settles O46: a finish leaves its component in IDLE, `t_done` the transactor; a ByteLink pulse
blocks its own guard; a start leaves the dispatcher in WAIT_DONE; and a request sets `issued`. -/
theorem pulsesLastOneCycle : Obligations.PulsesLastOneCycle := by
  intro s t h hs
  obtain ⟨-, rfl⟩ | ⟨-, rfl⟩ := step_next_reset_or_cycle hs
  · exact ⟨fun _ => rfl, fun _ => rfl, fun _ => rfl, fun _ => rfl, fun _ => rfl, fun _ => rfl,
      fun _ => rfl, fun _ => rfl, fun _ => rfl⟩
  have starts (pulse : (s.dispatcher.swR || s.dispatcher.srR) = true) :
      s.dispatcherNext.swR = false ∧ s.dispatcherNext.srR = false :=
    s.dispatcherNext_frame.starts (by simp [(h.startPulse pulse).1])
  have requests (req : s.transactor.emitReq = true ∨ s.transactor.decReq = true) :=
    Transactor.no_request_of_issued
      (Transactor.next_issued_of_request s.cfg s.transactorIn req)
  refine ⟨fun fin => ?emitter, fun fin => ?decoder, fun done => ?transactor,
    State.dispatcherNext_rxAckR_of_ack, State.dispatcherNext_txStartR_of_start,
    fun w => (starts (by simp [w])).1, fun r => (starts (by simp [r])).2,
    fun req => (requests (.inl req)).1, fun req => (requests (.inr req)).2⟩
  case emitter =>
    obtain ⟨idle, -⟩ := h.finishWanted fin
    exact s.emitterNext_frame.efin (by simp [idle]) (by simp [idle])
  case decoder =>
    obtain ⟨idle, -⟩ := h.bitReadDone fin
    exact s.decoderNext_frame.dfin (by simp [idle])
  case transactor => exact Transactor.next_tdone_of_idle (h.donePulse done).2 _ _

/-- Settles O51: the ticks are the quotient of `n * rate` by the clock rate, and `acc` the
remainder. -/
theorem tickSourceLaw : Obligations.TickSourceLaw := by
  intro rate clk n hclk hrate
  have below := TickSource.after_acc_lt (t := ⟨0⟩) hrate hclk n
  have total := TickSource.mul_count_add_acc (t := ⟨0⟩) hrate hclk n
  rw [Nat.zero_add] at total
  rw [← total, Nat.mul_add_mod, Nat.mod_eq_of_lt below, Nat.mul_add_div hclk, Nat.div_eq_of_lt below]
  exact ⟨rfl, rfl⟩

/-- Settles O52: before the last tick the phase goes on, and the last one ends it. -/
theorem symbolPhaseLastsItsTicks : Obligations.SymbolPhaseLastsItsTicks := by
  intro c e ticks hc sym _
  refine ⟨BitEmitter.over_of_tickCount_lt sym, fun last => ?_⟩
  obtain ⟨est, bcnt⟩ := BitEmitter.over_of_tickCount_lt (c := c) sym (ticks := ticks) (by omega)
  have one : (e.over c ticks).bcnt = 1 := by bv_omega
  rw [BitEmitter.over_append_singleton]
  refine ⟨fun space => ?space, fun notSpace => ?finish⟩
  case space =>
    have mark : (BitVec.ofNat 5 c.markTicks).toNat = c.markTicks := by
      obtain ⟨-, -, -, -, -, -, -, -, -, ⟨-, mark32⟩, -⟩ := Config.accepted_bounds c hc
      exact toNat_ofNat_of_lt mark32
    rw [BitEmitter.phase_of_last_tick_space (est.trans space) one]
    exact ⟨rfl, mark, rfl⟩
  case finish =>
    have sym' : (e.over c ticks).inSymbol = true := by rwa [BitEmitter.inSymbol, est]
    rw [BitEmitter.phase_of_last_tick sym' (est ▸ notSpace) one]
    exact ⟨rfl, rfl⟩

end Sys2Proof.Machine

/-! SUPPORT. The dispatcher on the path of a host command, state by state (spec rules R132 to R147),
the states no cycle returns to (R133, R204, R214), what ByteLink owes (R304), a run of whole cycles
as the host sees it, and the cycles of one TEST (R138, R152, R313); with the obligations on
41_command_dispatcher.md. -/

namespace Sys2Proof.Machine

/-! ### A command's cycle (R134 to R147, log entry 6) -/

/-- Without X3 a cycle with the dispatcher's next registers given completes, and the other
components take their own step. -/
theorem State.hostCycle_of_noConflict {s : State} (hn : s.noConflict = true) (d : Dispatcher) :
    s.hostCycle d = .next (s.advanced d (s.transactor.next s.cfg s.transactorIn) s.emitterNext
      s.decoderNext) := by
  have hc : s.transactor.conflict s.transactorIn = false := by simpa [State.noConflict] using hn
  exact (s.lockstep_eq_next_iff _ _ _ _ _).mpr ⟨hc, rfl⟩

/-- A host instruction's cycle is one on the path of its encoding's first byte. -/
theorem exec_eq_hostCycle_of_encode {s : State} {i : Instr} {c : Byte} {ops : List Byte}
    (h : encode s.cfg i = .host (c :: ops)) :
    ∃ reg data x, exec i s = s.hostCycle (s.dispatcherOn c reg data x) := by
  cases i <;> cases h <;> exact ⟨_, _, _, rfl⟩

section

variable {s : State} (code : Byte) (reg : Addr) (data : Data) (x : Dispatcher)

theorem State.dispatcherOn_of_waitCmd (hc : s.dispatcher.cst = .waitCmd) :
    s.dispatcherOn code reg data x = s.dispatcher.takeCommand s.dispatcherIn code := by
  simp [State.dispatcherOn, Dispatcher.path, hc]

theorem State.dispatcherOn_of_recvReg (hc : s.dispatcher.cst = .recvReg) :
    s.dispatcherOn code reg data x =
      s.dispatcher.takeRegister s.dispatcherIn (code == codeWriteReg) reg := by
  simp [State.dispatcherOn, Dispatcher.path, hc]

theorem State.dispatcherOn_of_recvData (hc : s.dispatcher.cst = .recvData) :
    s.dispatcherOn code reg data x =
      s.dispatcher.takeData s.dispatcherIn (byteLane data s.dispatcher.cidx) := by
  simp [State.dispatcherOn, Dispatcher.path, hc]

theorem State.dispatcherOn_of_startTx (hc : s.dispatcher.cst = .startTx) :
    s.dispatcherOn code reg data x = s.dispatcher.startTx (code == codeWriteReg) := by
  simp [State.dispatcherOn, Dispatcher.path, hc]

theorem State.dispatcherOn_of_waitDone (hc : s.dispatcher.cst = .waitDone) :
    s.dispatcherOn code reg data x =
      s.dispatcher.waitDone s.dispatcherIn (code == codeWriteReg) := by
  simp [State.dispatcherOn, Dispatcher.path, hc]

theorem State.dispatcherOn_of_sendData (hc : s.dispatcher.cst = .sendData) :
    s.dispatcherOn code reg data x = s.dispatcher.sendData s.dispatcherIn := by
  simp [State.dispatcherOn, Dispatcher.path, hc]

theorem State.dispatcherOn_of_sendAck (hc : s.dispatcher.cst = .sendAck) :
    s.dispatcherOn code reg data x = s.dispatcher.sendAck s.cfg s.dispatcherIn := by
  simp [State.dispatcherOn, Dispatcher.path, hc]

end

/-! ### The handshake guards (R132, R171) -/

theorem State.rxOk_iff (s : State) :
    s.rxOk = true ↔ s.inputs.rxReady = true ∧ s.dispatcher.rxAckR = false := by
  simp [State.rxOk]

theorem State.txOk_iff (s : State) :
    s.txOk = true ↔ s.inputs.txReady = true ∧ s.dispatcher.txStartR = false := by
  simp [State.txOk]

theorem State.tReady_iff (s : State) :
    s.tReady = true ↔ s.emitter.ready = true ∧ s.transactor.tst = .idle := by
  simp [State.tReady]

/-! ### The rules by command and by lane (R142 to R146) -/

theorem Dispatcher.takeRegister_by_command (d : Dispatcher) (p : DispatcherIn) (reg : Addr) :
    d.takeRegister p (d.cmd == codeWriteReg) reg =
      if p.rxOk then
        if d.cmd = codeWriteReg then
          { d.quiet with creg := reg, rxAckR := true, cst := .recvData, cidx := 0 }
        else { d.quiet with creg := reg, rxAckR := true, cst := .startTx }
      else d.quiet := by
  by_cases write : d.cmd = codeWriteReg <;> simp [takeRegister, write]

theorem Dispatcher.takeData_by_lane {d : Dispatcher} (hc : d.cst = .recvData) (p : DispatcherIn)
    (b : Byte) :
    d.takeData p b =
      if p.rxOk then
        if d.cidx = 3 then
          { d.quiet with
            cwdata := insertLane d.cwdata d.cidx b, rxAckR := true, cst := .startTx, cidx := 0 }
        else
          { d.quiet with
            cwdata := insertLane d.cwdata d.cidx b, rxAckR := true, cidx := d.cidx + 1 }
      else d.quiet := by
  by_cases last : d.cidx = 3 <;> simp only [takeData, last, if_true, if_false, quiet, hc]

theorem Dispatcher.startTx_by_command (d : Dispatcher) :
    d.startTx (d.cmd == codeWriteReg) =
      if d.cmd = codeWriteReg then { d.quiet with swR := true, cst := .waitDone }
      else { d.quiet with srR := true, cst := .waitDone } := by
  by_cases write : d.cmd = codeWriteReg <;> simp [startTx, write, Dispatcher.quiet]

theorem Dispatcher.waitDone_by_command (d : Dispatcher) (p : DispatcherIn) :
    d.waitDone p (d.cmd == codeWriteReg) =
      if p.tDone then
        if d.cmd = codeWriteReg then { d.quiet with cst := .sendAck }
        else { d.quiet with crdata := p.readData, cidx := 0, cst := .sendData }
      else d.quiet := by
  by_cases write : d.cmd = codeWriteReg <;> simp [waitDone, write]

theorem Dispatcher.sendData_by_lane {d : Dispatcher} (hc : d.cst = .sendData) (p : DispatcherIn) :
    d.sendData p =
      if p.txOk then
        if d.cidx = 3 then
          { d.quiet with
            txDataR := byteLane d.crdata d.cidx, txStartR := true, cst := .sendAck, cidx := 0 }
        else
          { d.quiet with
            txDataR := byteLane d.crdata d.cidx, txStartR := true, cidx := d.cidx + 1 }
      else d.quiet := by
  by_cases last : d.cidx = 3 <;> simp only [sendData, last, if_true, if_false, quiet, hc]

/-! ### What is never run again without a reset (R133, R204, R214) -/

/-- No rule assigns ATTACH_HIGH to `est` (R203 to R212). -/
theorem BitEmitter.phase_ne_attachHigh {e : BitEmitter} (h : e.est ≠ .attachHigh) (c : Config)
    (m k : Bool) : (e.phase c m k).est ≠ .attachHigh := by
  cases he : e.est <;> simp only [phase, he]
  case attachHigh => exact absurd he h
  case attachLow => unfold attachLow; split_ifs <;> simp [he]
  case idle => simp [he]
  case space => unfold space; split_ifs <;> simp [he]
  case mark => unfold mark; split_ifs <;> simp [he]
  case stop => unfold stop; split_ifs <;> simp [he]

theorem BitEmitter.ne_attachHigh_of_ready {e : BitEmitter} (h : e.ready = true) :
    e.est ≠ .attachHigh := fun he => by simp [ready, he] at h

/-- An accepted request puts a symbol on the line, which is no attach phase. -/
theorem State.emitterNext_ne_attachHigh {s : State} (hc : s.cfg.accepted = true)
    (h : s.emitter.est ≠ .attachHigh) : s.emitterNext.est ≠ .attachHigh := by
  obtain e | ⟨-, accepted⟩ := s.emitterNext_cases
  · rw [e]
    exact BitEmitter.phase_ne_attachHigh h _ _ _
  · exact BitEmitter.ne_attachHigh_of_ready
      (BitEmitter.ready_of_inSymbol (accepted.facts hc).1)

/-- Every effect of DISPATCH leaves INIT behind (R135). -/
theorem Dispatcher.Dispatched.cst_ne_init {d x : Dispatcher} (hx : d.Dispatched x) :
    x.cst ≠ .init := by
  rcases hx with rfl | rfl | rfl | rfl | rfl | rfl <;> exact DispatcherState.noConfusion

/-- No rule assigns INIT to `cst` (R134 to R147). -/
theorem State.dispatcherNext_cst_ne_init {s : State} (h : s.dispatcher.cst ≠ .init) :
    s.dispatcherNext.cst ≠ .init := by
  cases hc : s.dispatcher.cst
  case init => exact absurd hc h
  case waitCmd =>
    rw [State.dispatcherNext_of_waitCmd hc, Dispatcher.takeCommand]
    split_ifs <;> simp [hc]
  case dispatch =>
    rw [State.dispatcherNext_of_dispatch hc]
    exact (s.dispatcher.dispatchByCode_cases _).cst_ne_init
  case recvReg =>
    rw [State.dispatcherNext_of_recvReg hc, Dispatcher.takeRegister]
    split_ifs <;> simp [hc]
  case recvData =>
    rw [State.dispatcherNext_of_recvData hc, Dispatcher.takeData]
    split_ifs <;> simp [hc]
  case startTx => simp [State.dispatcherNext_of_startTx hc, Dispatcher.startTx]
  case waitDone =>
    rw [State.dispatcherNext_of_waitDone hc, Dispatcher.waitDone]
    split_ifs <;> simp [hc]
  case sendData =>
    rw [State.dispatcherNext_of_sendData hc, Dispatcher.sendData]
    split_ifs <;> simp [hc]
  case sendAck =>
    rw [State.dispatcherNext_of_sendAck hc, Dispatcher.sendAck]
    split_ifs <;> simp [hc]

/-! ### What ByteLink owes (R304 R-a, R-c) -/

theorem Env.next_held_of_offer {v : Env} (h : v.inputs.rxReady = true) :
    (v.next false).held = some v.inputs.rxData := by
  simp [Env.next, h]

theorem Env.next_held_of_no_offer {v : Env} (h : v.inputs.rxReady = false) (a : Bool) :
    (v.next a).held = none := by
  simp [Env.next, h]

theorem Env.next_held_of_ack (v : Env) : (v.next true).held = none := by
  simp [Env.next]

/-- An environment moves on by its schedule, its draws and the inputs of its cycle. -/
theorem Env.next_congr {v w : Env} (pending : v.pending = w.pending) (draws : v.draws = w.draws)
    (inputs : v.inputs = w.inputs) (a : Bool) : v.next a = w.next a := by
  simp only [Env.next, pending, draws, inputs]

theorem Env.rxReady_of_free {v : Env} {b : Byte} (free : v.pending = []) (owed : v.held = some b) :
    v.inputs.rxReady = true := by
  simp [Env.inputs, free, owed]

/-- A byte that is owed goes unoffered only in a scheduled cycle, whose inputs are the same whatever
was acknowledged. -/
theorem Env.next_inputs_of_no_offer {v : Env} (offered : v.inputs.rxReady = true)
    (withdrawn : (v.next false).inputs.rxReady = false) (a : Bool) :
    (v.next a).inputs = (v.next false).inputs := by
  cases hp : v.pending.tail with
  | nil =>
    have ready := Env.rxReady_of_free (v := v.next false) hp (Env.next_held_of_offer offered)
    exact absurd (ready.symm.trans withdrawn) (by simp)
  | cons i is => simp [Env.inputs, Env.next, hp]

theorem State.linkKept_of_held_none {s : State} (h : s.env.held = none) : s.linkKept = true := by
  simp [State.linkKept, h]

theorem State.linkKept_of_held_some {s : State} {b : Byte} (h : s.env.held = some b)
    (ready : s.inputs.rxReady = true) (data : s.inputs.rxData = b) : s.linkKept = true := by
  simp [State.linkKept, h, ready, data]

/-! ### A run of whole cycles as the host sees it (R112, R313) -/

/-- The state after `n` plain cycles. -/
def State.afterCycles (s : State) : Nat → State
  | 0 => s
  | n + 1 => (s.afterCycles n).afterCycle

@[simp] theorem State.afterCycles_zero (s : State) : s.afterCycles 0 = s := rfl

/-- The bytes ByteLink hands over in the first `n` plain cycles. -/
def State.bytesTaken (s : State) (n : Nat) : List Byte :=
  (List.range n).flatMap fun k => (s.afterCycles k).byteTaken.toList

/-- The bytes the core hands over in the first `n` plain cycles. -/
def State.bytesSent (s : State) (n : Nat) : List Byte :=
  (List.range n).flatMap fun k => (s.afterCycles k).byteSent.toList

@[simp] theorem State.bytesTaken_zero (s : State) : s.bytesTaken 0 = [] := rfl

theorem State.bytesTaken_succ (s : State) (n : Nat) :
    s.bytesTaken (n + 1) = s.bytesTaken n ++ (s.afterCycles n).byteTaken.toList := by
  simp [State.bytesTaken, List.range_succ]

theorem State.bytesSent_succ (s : State) (n : Nat) :
    s.bytesSent (n + 1) = s.bytesSent n ++ (s.afterCycles n).byteSent.toList := by
  simp [State.bytesSent, List.range_succ]

theorem State.noConflict_of_no_startWrite {s : State} (h : s.dispatcher.swR = false) :
    s.noConflict = true := by
  simp [State.noConflict, Transactor.conflict, State.transactorIn, h]

/-- While every cycle is one of the core without X3, a host run is the run of plain cycles. -/
theorem HostRun.after_of_runs {s : State} {n : Nat}
    (h : ∀ k < n, (s.afterCycles k).runs = true ∧ (s.afterCycles k).noConflict = true) :
    (HostRun.start s).after n =
      some { state := s.afterCycles n, taken := s.bytesTaken n, sent := s.bytesSent n } := by
  induction n with
  | zero => rfl
  | succ n ih =>
    obtain ⟨hruns, hn⟩ := h n n.lt_succ_self
    obtain ⟨-, hrst, -⟩ := (State.runs_iff _).mp hruns
    refine HostRun.after_succ_of_next (ih fun k hk => h k (hk.trans n.lt_succ_self))
      ((HostRun.next_eq_some_iff _ _).mpr ⟨hrst, _, step_of_noConflict hruns hn, ?_⟩)
    rw [State.bytesTaken_succ, State.bytesSent_succ]
    rfl

theorem State.completeAt_of_runs {s : State} {n : Nat}
    (h : ∀ k < n, (s.afterCycles k).runs = true ∧ (s.afterCycles k).noConflict = true)
    (program : List Byte) :
    s.completeAt program n = true ↔ (s.afterCycles n).quiescent = true ∧
      s.bytesTaken n = program ∧ (s.bytesSent n).length = s.repliesOwed program := by
  simp [State.completeAt, HostRun.after_of_runs h, and_assoc]

/-! ### The components at rest (R313) -/

/-- Emitter, decoder and transactor are idle and none of them shows a pulse. -/
structure State.PartsAtRest (s : State) : Prop where
  transactor : s.transactor.tst = .idle ∧ s.transactor.tdone = false
  emitter : s.emitter.est = .idle ∧ s.emitter.efin = false
  decoder : s.decoder.dst = .idle ∧ s.decoder.dfin = false

theorem Dispatcher.quiet_eq_self_iff (d : Dispatcher) :
    d.quiet = d ↔
      d.rxAckR = false ∧ d.txStartR = false ∧ d.swR = false ∧ d.srR = false := by
  cases d
  simp [quiet, eq_comm]

/-- R313: the dispatcher waits for a command without a pulse, and the other parts are at rest. -/
theorem State.quiescent_iff (s : State) :
    s.quiescent = true ↔ s.dispatcher.cst = .waitCmd ∧ s.dispatcher.quiet = s.dispatcher ∧
      s.PartsAtRest := by
  simp only [State.quiescent, Bool.and_eq_true, beq_iff_eq, Bool.not_eq_true', and_assoc]
  rw [Dispatcher.quiet_eq_self_iff]
  constructor
  · rintro ⟨cst, tst, est, dst, efin, dfin, tdone, pulses⟩
    exact ⟨cst, pulses, ⟨⟨tst, tdone⟩, ⟨est, efin⟩, dst, dfin⟩⟩
  · rintro ⟨cst, pulses, ⟨⟨tst, tdone⟩, ⟨est, efin⟩, dst, dfin⟩⟩
    exact ⟨cst, tst, est, dst, efin, dfin, tdone, pulses⟩

/-- Without a start the parts at rest stay as they are. -/
theorem State.PartsAtRest.afterCycles {s : State} (h : s.PartsAtRest) {n : Nat}
    (noStart : ∀ k < n, (s.afterCycles k).dispatcher.swR = false ∧
      (s.afterCycles k).dispatcher.srR = false) :
    (s.afterCycles n).transactor = s.transactor ∧ (s.afterCycles n).emitter = s.emitter ∧
      (s.afterCycles n).decoder = s.decoder := by
  induction n with
  | zero => exact ⟨rfl, rfl, rfl⟩
  | succ n ih =>
    obtain ⟨transactor, emitter, decoder⟩ := ih fun k hk => noStart k (hk.trans n.lt_succ_self)
    obtain ⟨noWrite, noRead⟩ := noStart n n.lt_succ_self
    obtain ⟨idle, noDone⟩ := transactor ▸ h.transactor
    refine ⟨Eq.trans ?_ transactor, Eq.trans ?_ emitter, Eq.trans ?_ decoder⟩
    · exact (Transactor.next_of_no_start idle noWrite noRead).trans
        (Transactor.quiet_of_tdone noDone)
    · exact State.emitterNext_of_rest (emitter ▸ h.emitter)
        (by simp [Transactor.emitReq, Transactor.emitting, idle])
    · exact State.decoderNext_of_rest (decoder ▸ h.decoder) (by simp [Transactor.decReq, idle])

section

variable {c : Config} {p : DispatcherIn} (d : Dispatcher)

theorem Dispatcher.takeCommand_of_rxOk (b : Byte) (h : p.rxOk = true) :
    d.takeCommand p b = { d.quiet with cmd := b, rxAckR := true, cst := .dispatch } := if_pos h

theorem Dispatcher.takeCommand_of_no_rxOk (b : Byte) (h : p.rxOk = false) :
    d.takeCommand p b = d.quiet := if_neg (by simp [h])

theorem Dispatcher.sendAck_of_txOk (h : p.txOk = true) :
    d.sendAck c p = { d.quiet with txDataR := c.ackByte, txStartR := true, cst := .waitCmd } :=
  if_pos h

end

/-! ### The cycles of one TEST (R138, R152) -/

/-- `'?'` is taken in WAIT_CMD; ByteLink goes on offering it in the second cycle and can accept a
byte in the third, and no reset comes in the three. -/
structure State.TakesTest (s : State) : Prop where
  runs : s.runs = true
  noConflict : s.noConflict = true
  waitCmd : s.dispatcher.cst = .waitCmd
  rxOk : s.rxOk = true
  code : s.inputs.rxData = codeTest
  noReset : s.env.noReset 3
  offered : (s.env.skip 1).inputs.rxReady = true
  sameByte : (s.env.skip 1).inputs.rxData = codeTest
  accepts : (s.env.skip 2).inputs.txReady = true

section

variable {s : State}

theorem State.TakesTest.dispatcher_one (h : s.TakesTest) : (s.afterCycles 1).dispatcher =
    { s.dispatcher.quiet with cmd := codeTest, rxAckR := true, cst := .dispatch } := by
  change s.dispatcherNext = _
  rw [State.dispatcherNext_of_waitCmd h.waitCmd, Dispatcher.takeCommand_of_rxOk _ _ h.rxOk,
    h.code]

theorem State.TakesTest.dispatcher_two (h : s.TakesTest) : (s.afterCycles 2).dispatcher =
    { s.dispatcher.quiet with cmd := codeTest, cst := .sendAck } := by
  change (s.afterCycles 1).dispatcherNext = _
  rw [State.dispatcherNext_of_dispatch (by rw [h.dispatcher_one]), h.dispatcher_one]
  rfl

theorem State.TakesTest.env_one (h : s.TakesTest) : (s.afterCycles 1).env = s.env.skip 1 := by
  change s.env.next s.dispatcher.rxAckR = _
  rw [(s.rxOk_iff.mp h.rxOk).2]
  rfl

theorem State.TakesTest.env_two (h : s.TakesTest) :
    (s.afterCycles 2).env = (s.env.skip 1).next true := by
  change (s.afterCycles 1).env.next (s.afterCycles 1).dispatcher.rxAckR = _
  rw [h.env_one, h.dispatcher_one]

/-- What ByteLink can accept in the third cycle does not depend on the acknowledgement. -/
theorem State.TakesTest.dispatcher_three (h : s.TakesTest) : (s.afterCycles 3).dispatcher =
    { s.dispatcher.quiet with
      cmd := codeTest, txDataR := s.cfg.ackByte, txStartR := true, cst := .waitCmd } := by
  obtain ⟨-, txReady, -⟩ := (s.env.skip 1).next_inputs_of_ack true false
  have ready : (s.afterCycles 2).inputs.txReady = true := by
    rw [State.inputs, h.env_two, txReady]
    exact h.accepts
  have tx : (s.afterCycles 2).txOk = true :=
    (State.txOk_iff _).mpr ⟨ready, by rw [h.dispatcher_two]; rfl⟩
  change (s.afterCycles 2).dispatcherNext = _
  rw [State.dispatcherNext_of_sendAck (by rw [h.dispatcher_two]), Dispatcher.sendAck_of_txOk _ tx,
    h.dispatcher_two]
  rfl

/-- Each of the three cycles is one of the core: the byte owed in the second is offered, and none is
owed in the third. -/
theorem State.TakesTest.runs_three (h : s.TakesTest) :
    ∀ k < 3, (s.afterCycles k).runs = true ∧ (s.afterCycles k).noConflict = true := by
  obtain ⟨accepted, -, -⟩ := s.runs_iff.mp h.runs
  obtain ⟨ready, -⟩ := s.rxOk_iff.mp h.rxOk
  intro k hk
  interval_cases k
  · exact ⟨h.runs, h.noConflict⟩
  · have owed : (s.afterCycles 1).env.held = some codeTest := by
      rw [h.env_one, ← h.code]
      exact Env.next_held_of_offer ready
    have inputs : (s.afterCycles 1).inputs = (s.env.skip 1).inputs := congrArg Env.inputs h.env_one
    refine ⟨(State.runs_iff _).mpr ⟨accepted, ?_, State.linkKept_of_held_some owed ?_ ?_⟩,
      State.noConflict_of_no_startWrite (by rw [h.dispatcher_one]; rfl)⟩ <;> rw [inputs]
    · exact h.noReset 1 (by omega)
    · exact h.offered
    · exact h.sameByte
  · obtain ⟨rst, -⟩ := (s.env.skip 1).next_inputs_of_ack true false
    have inputs : (s.afterCycles 2).inputs = ((s.env.skip 1).next true).inputs :=
      congrArg Env.inputs h.env_two
    refine ⟨(State.runs_iff _).mpr ⟨accepted, ?_, State.linkKept_of_held_none ?_⟩,
      State.noConflict_of_no_startWrite (by rw [h.dispatcher_two]; rfl)⟩
    · rw [inputs, rst]
      exact h.noReset 2 (by omega)
    · rw [h.env_two, Env.next_held_of_ack]

end

/-! ### The end of a program of one TEST (R313) -/

/-- The state is quiescent, and after the one byte nothing more is offered and no reset comes. -/
structure State.TakesTestAlone (s : State) : Prop extends s.TakesTest where
  quiescent : s.quiescent = true
  noResetAfter : s.env.noReset 4
  noOfferTwo : (s.env.skip 2).inputs.rxReady = false
  noOfferThree : (s.env.skip 3).inputs.rxReady = false

section

variable {s : State}

theorem State.TakesTestAlone.noPulses (h : s.TakesTestAlone) :
    s.dispatcher.rxAckR = false ∧ s.dispatcher.txStartR = false ∧ s.dispatcher.swR = false ∧
      s.dispatcher.srR = false := by
  obtain ⟨-, quiet, -⟩ := s.quiescent_iff.mp h.quiescent
  exact s.dispatcher.quiet_eq_self_iff.mp quiet

theorem State.TakesTestAlone.inputs_two (h : s.TakesTestAlone) :
    (s.afterCycles 2).inputs = (s.env.skip 2).inputs := by
  rw [State.inputs, h.env_two]
  exact Env.next_inputs_of_no_offer h.offered h.noOfferTwo true

theorem State.TakesTestAlone.env_three (h : s.TakesTestAlone) :
    (s.afterCycles 3).env = s.env.skip 3 := by
  change (s.afterCycles 2).env.next (s.afterCycles 2).dispatcher.rxAckR = (s.env.skip 2).next false
  have noAck : (s.afterCycles 2).dispatcher.rxAckR = false := by rw [h.dispatcher_two]; rfl
  rw [noAck]
  exact Env.next_congr (by rw [h.env_two]; rfl) (by rw [h.env_two]; rfl) h.inputs_two false

theorem State.TakesTestAlone.dispatcher_four (h : s.TakesTestAlone) :
    (s.afterCycles 4).dispatcher =
      { s.dispatcher.quiet with cmd := codeTest, txDataR := s.cfg.ackByte } := by
  have noRx : (s.afterCycles 3).rxOk = false := by
    rw [State.rxOk, State.inputs, h.env_three, h.noOfferThree, Bool.false_and]
  change (s.afterCycles 3).dispatcherNext = _
  rw [State.dispatcherNext_of_waitCmd (by rw [h.dispatcher_three]),
    Dispatcher.takeCommand_of_no_rxOk _ _ noRx, h.dispatcher_three, ← h.waitCmd]
  rfl

theorem State.TakesTestAlone.runs_four (h : s.TakesTestAlone) :
    ∀ k < 4, (s.afterCycles k).runs = true ∧ (s.afterCycles k).noConflict = true := by
  intro k hk
  obtain lt | rfl : k < 3 ∨ k = 3 := by omega
  · exact h.runs_three k lt
  obtain ⟨accepted, -, -⟩ := s.runs_iff.mp h.runs
  refine ⟨(State.runs_iff _).mpr ⟨accepted, ?_, State.linkKept_of_held_none ?_⟩,
    State.noConflict_of_no_startWrite (by rw [h.dispatcher_three]; rfl)⟩
  · rw [State.inputs, h.env_three]
    exact h.noResetAfter 3 (by omega)
  · rw [h.env_three]
    exact Env.next_held_of_no_offer h.noOfferTwo false

/-- Until the ack is out nothing is sent. -/
theorem State.TakesTestAlone.bytesSent_eq_nil (h : s.TakesTestAlone) {n : Nat} (hn : n ≤ 3) :
    s.bytesSent n = [] := by
  refine List.flatMap_eq_nil_iff.mpr fun k hk => ?_
  have noStart : (s.afterCycles k).dispatcher.txStartR = false := by
    obtain rfl | rfl | rfl : k = 0 ∨ k = 1 ∨ k = 2 := by
      have := List.mem_range.mp hk
      omega
    · exact h.noPulses.2.1
    · rw [h.dispatcher_one]; rfl
    · rw [h.dispatcher_two]; rfl
  simp [State.byteSent, noStart]

/-- The ack is handed over in the fourth cycle. -/
theorem State.TakesTestAlone.bytesSent_four (h : s.TakesTestAlone) :
    s.bytesSent 4 = [s.cfg.ackByte] := by
  rw [State.bytesSent_succ, h.bytesSent_eq_nil le_rfl, State.byteSent, h.dispatcher_three]
  rfl

/-- The byte is handed over in the second cycle, and no other. -/
theorem State.TakesTestAlone.bytesTaken_four (h : s.TakesTestAlone) :
    s.bytesTaken 4 = [codeTest] := by
  have second : (s.afterCycles 1).inputs.rxData = codeTest := by
    rw [State.inputs, h.env_one, h.sameByte]
  simp [State.bytesTaken_succ, State.byteTaken, h.noPulses, h.dispatcher_one, h.dispatcher_two,
    h.dispatcher_three, second]

/-- No pulse of the dispatcher's starts a transaction in the four cycles. -/
theorem State.TakesTestAlone.parts_four (h : s.TakesTestAlone) :
    (s.afterCycles 4).transactor = s.transactor ∧ (s.afterCycles 4).emitter = s.emitter ∧
      (s.afterCycles 4).decoder = s.decoder := by
  obtain ⟨-, -, rest⟩ := s.quiescent_iff.mp h.quiescent
  refine rest.afterCycles fun k hk => ?_
  obtain rfl | rfl | rfl | rfl : k = 0 ∨ k = 1 ∨ k = 2 ∨ k = 3 := by omega
  · exact h.noPulses.2.2
  · rw [h.dispatcher_one]; exact ⟨rfl, rfl⟩
  · rw [h.dispatcher_two]; exact ⟨rfl, rfl⟩
  · rw [h.dispatcher_three]; exact ⟨rfl, rfl⟩

theorem State.TakesTestAlone.quiescent_four (h : s.TakesTestAlone) :
    (s.afterCycles 4).quiescent = true := by
  obtain ⟨cst, -, transactor, emitter, decoder⟩ := s.quiescent_iff.mp h.quiescent
  obtain ⟨sameTransactor, sameEmitter, sameDecoder⟩ := h.parts_four
  refine (State.quiescent_iff _).mpr ⟨?_, ?_, sameTransactor ▸ transactor, sameEmitter ▸ emitter,
    sameDecoder ▸ decoder⟩
  · rw [h.dispatcher_four]; exact cst
  · rw [h.dispatcher_four]; rfl

theorem State.TakesTest.repliesOwed (h : s.TakesTest) : s.repliesOwed [codeTest] = 1 := by
  simp [State.repliesOwed, h.waitCmd, framesOf, decodeFrame, Instr.replyLength]

/-- In cycle 4 everything is at rest again and the ack is out; before it nothing was sent. -/
theorem State.TakesTestAlone.programEndsAt_four (h : s.TakesTestAlone) :
    s.programEndsAt [codeTest] 4 (s.afterCycles 4) := by
  refine ⟨?complete, fun m hm => Bool.eq_false_iff.mpr fun complete => ?notBefore, ?state⟩
  case complete =>
    refine (State.completeAt_of_runs h.runs_four _).mpr
      ⟨h.quiescent_four, h.bytesTaken_four, ?_⟩
    rw [h.bytesSent_four, h.repliesOwed]
    rfl
  case notBefore =>
    have runs := fun k hk => h.runs_four k (Nat.lt_trans hk hm)
    obtain ⟨-, -, sent⟩ := (State.completeAt_of_runs runs _).mp complete
    rw [h.bytesSent_eq_nil (by omega), h.repliesOwed] at sent
    cases sent
  case state =>
    rw [HostRun.after_of_runs h.runs_four]
    rfl

end

/-! ### The obligations -/

/-- Settles O14: without X3 the step is the whole cycle, and each state's rule is its block. -/
theorem dispatcherFollowsItsStateRules : Obligations.DispatcherFollowsItsStateRules := by
  rintro s _ q _ _ hruns hn rfl hq rfl rfl
  obtain rfl : q = s.dispatcher.quiet := hq
  refine ⟨fun clk power hcfg => ?source, s.afterCycle, step_of_noConflict hruns hn, ?rules⟩
  case source =>
    rw [hcfg]
    exact ⟨rfl, rfl, regOfByte_source clk power _⟩
  change s.dispatcherNext = _
  cases hc : s.dispatcher.cst
  case init => exact State.dispatcherNext_of_init hc
  case waitCmd => exact State.dispatcherNext_of_waitCmd hc
  case dispatch => exact State.dispatcherNext_of_dispatch hc
  case recvReg =>
    exact (State.dispatcherNext_of_recvReg hc).trans (s.dispatcher.takeRegister_by_command _ _)
  case recvData =>
    exact (State.dispatcherNext_of_recvData hc).trans (Dispatcher.takeData_by_lane hc _ _)
  case startTx =>
    exact (State.dispatcherNext_of_startTx hc).trans s.dispatcher.startTx_by_command
  case waitDone =>
    exact (State.dispatcherNext_of_waitDone hc).trans (s.dispatcher.waitDone_by_command _)
  case sendData =>
    exact (State.dispatcherNext_of_sendData hc).trans (Dispatcher.sendData_by_lane hc _)
  case sendAck => exact State.dispatcherNext_of_sendAck hc

/-- Settles O21: in DISPATCH a command's path is its own effect. -/
theorem oneByteCommandsInDispatch : Obligations.OneByteCommandsInDispatch := by
  rintro s c _ hn hc rfl
  have dispatched (code : Byte) (x : Dispatcher) :
      s.hostCycle (s.dispatcherOn code (regOfByte s.cfg s.registerByte) s.frameData x) =
        .next (s.advanced x (s.transactor.next s.cfg s.transactorIn) s.emitterNext
          s.decoderNext) := by
    rw [State.dispatcherOn_of_dispatch hc, State.hostCycle_of_noConflict hn]
  exact ⟨dispatched _ _, dispatched _ _, dispatched _ _, dispatched _ _⟩

/-- Settles O22: in WAIT_CMD the path takes its own command byte. -/
theorem commandByteIsTaken : Obligations.CommandByteIsTaken := by
  rintro s i c ops _ hn hc hi rfl
  obtain ⟨reg, data, x, hexec⟩ := exec_eq_hostCycle_of_encode hi
  rw [hexec, State.dispatcherOn_of_waitCmd _ _ _ _ hc, State.hostCycle_of_noConflict hn]
  simp only [← State.rxOk_iff]
  rfl

/-- Settles O23: in SEND_ACK every command's path sends the ack. -/
theorem ackIsHandedOver : Obligations.AckIsHandedOver := by
  rintro s i reg data _ hn hc hi rfl
  refine ⟨fun clk power hcfg => by rw [hcfg]; rfl, ?_⟩
  obtain ⟨c, ops, henc⟩ : ∃ c ops, encode s.cfg i = .host (c :: ops) := by
    rcases hi with rfl | rfl | rfl | rfl | rfl <;> exact ⟨_, _, rfl⟩
  obtain ⟨reg, data, x, hexec⟩ := exec_eq_hostCycle_of_encode henc
  rw [hexec, State.dispatcherOn_of_sendAck _ _ _ _ hc, State.hostCycle_of_noConflict hn]
  simp only [← State.txOk_iff]
  rfl

/-- Settles O27: in INIT the greeting's cycle is R133's block. -/
theorem greetingWhenBothReady : Obligations.GreetingWhenBothReady := by
  rintro s _ hn hc rfl
  refine ⟨fun clk power hcfg => by rw [hcfg]; rfl, ?_⟩
  have guard : (s.inputs.txReady = true ∧ s.dispatcher.txStartR = false ∧
      s.emitter.ready = true ∧ s.transactor.tst = .idle) ↔ (s.txOk && s.tReady) = true := by
    rw [Bool.and_eq_true, State.txOk_iff, State.tReady_iff, and_assoc]
  rw [exec, execGreeting, if_pos hc, State.hostCycle_of_noConflict hn]
  simp only [guard]
  rfl

/-- Settles O24: WRITE_REG's path, one state's rule at a time. -/
theorem writeRegAcrossItsStates : Obligations.WriteRegAcrossItsStates := by
  rintro s reg data _ hn init waitCmd sendData sendAck rfl
  refine (State.hostCycle_of_noConflict hn _).trans ?_
  congr 2
  cases hc : s.dispatcher.cst
  case init => exact absurd hc init
  case waitCmd => exact absurd hc waitCmd
  case sendData => exact absurd hc sendData
  case sendAck => exact absurd hc sendAck
  case dispatch => exact State.dispatcherOn_of_dispatch hc _ _ _ _
  case recvReg => exact State.dispatcherOn_of_recvReg _ _ _ _ hc
  case recvData => exact State.dispatcherOn_of_recvData _ _ _ _ hc
  case startTx => exact State.dispatcherOn_of_startTx _ _ _ _ hc
  case waitDone => exact State.dispatcherOn_of_waitDone _ _ _ _ hc

/-- Settles O25: READ_REG's path, one state's rule at a time. -/
theorem readRegAcrossItsStates : Obligations.ReadRegAcrossItsStates := by
  rintro s reg _ hn init waitCmd recvData sendAck rfl
  refine (State.hostCycle_of_noConflict hn _).trans ?_
  congr 2
  cases hc : s.dispatcher.cst
  case init => exact absurd hc init
  case waitCmd => exact absurd hc waitCmd
  case recvData => exact absurd hc recvData
  case sendAck => exact absurd hc sendAck
  case dispatch => exact State.dispatcherOn_of_dispatch hc _ _ _ _
  case recvReg => exact State.dispatcherOn_of_recvReg _ _ _ _ hc
  case startTx => exact State.dispatcherOn_of_startTx _ _ _ _ hc
  case waitDone => exact State.dispatcherOn_of_waitDone _ _ _ _ hc
  case sendData => exact State.dispatcherOn_of_sendData _ _ _ _ hc

/-- Settles O49: an acknowledgement comes from a cycle, since a reset leaves `rx_ack` at 0. -/
theorem bytesAreTakenOnlyWhereAwaited : Obligations.BytesAreTakenOnlyWhereAwaited := by
  intro s t h ack
  obtain ⟨-, rfl⟩ | ⟨-, rfl⟩ := step_next_reset_or_cycle h
  · cases ack
  · obtain ⟨awaited, rx⟩ := State.rxOk_of_dispatcherNext_rxAckR ack
    exact ⟨awaited, s.rxOk_iff.mp rx⟩

/-- Settles O50: without `rst` no component returns to the state it has after reset. -/
theorem attachAndGreetingRunOncePerReset : Obligations.AttachAndGreetingRunOncePerReset := by
  intro s t h hr
  obtain ⟨hc, -⟩ := step_next_cases h
  obtain ⟨hrst, -⟩ | ⟨-, rfl⟩ := step_next_reset_or_cycle h
  · simp [hr] at hrst
  · exact ⟨State.emitterNext_ready hc, State.emitterNext_ne_attachHigh hc,
      State.dispatcherNext_cst_ne_init⟩

/-- Settles O60: the three cycles of one TEST, and the fourth in which its program ends. -/
theorem testIsAnsweredInThreeCycles : Obligations.TestIsAnsweredInThreeCycles := by
  intro s hruns hn hc rx code noReset offered sameByte accepts
  have h : s.TakesTest := ⟨hruns, hn, hc, rx, code, noReset, offered, sameByte, accepts⟩
  refine ⟨⟨s.afterCycles 3, HostRun.after_core_run (HostRun.after_of_runs h.runs_three), ?_⟩,
    fun quiescent noResetAfter noOfferTwo noOfferThree => ⟨s.afterCycles 4, ?_⟩⟩
  · rw [h.dispatcher_three]
    exact ⟨rfl, rfl, rfl, rfl, rfl, rfl, rfl⟩
  · have alone : s.TakesTestAlone := ⟨h, quiescent, noResetAfter, noOfferTwo, noOfferThree⟩
    obtain ⟨-, quiet, -⟩ := s.quiescent_iff.mp quiescent
    obtain ⟨transactor, emitter, decoder⟩ := alone.parts_four
    have ends := alone.programEndsAt_four
    exact ⟨ends, by rw [alone.dispatcher_four, quiet]; rfl, transactor, emitter, decoder, rfl,
      fun m u hu => State.programEndsAt_unique hu ends⟩

end Sys2Proof.Machine

/-! SUPPORT. What a start does to the transactor in IDLE and outside it (spec rules R173 to R176),
the request a state makes (R171, R177), a frame's rule in one equation (R177 to R183), and the line
during a bit read (R186, R218); with the obligations on 42_swio_transactor.md. -/

namespace Sys2Proof.Machine

/-! ### The cycle with and without X3 (R175) -/

theorem State.lockstep_of_conflict {s : State} {p : TransactorIn}
    (h : s.transactor.conflict p = true) (d : Dispatcher) (e : BitEmitter) (b : BitDecoder) :
    s.lockstep p d e b = .fault .conflictingStart := if_pos h

theorem State.lockstep_of_no_conflict {s : State} {p : TransactorIn}
    (h : s.transactor.conflict p = false) (d : Dispatcher) (e : BitEmitter) (b : BitDecoder) :
    s.lockstep p d e b = .next (s.advanced d (s.transactor.next s.cfg p) e b) :=
  (s.lockstep_eq_next_iff _ _ _ _ _).mpr ⟨h, rfl⟩

/-! ### The two starts (R173 to R176) -/

section

variable {t : Transactor} {p : TransactorIn}

theorem Transactor.conflict_of_busy (h : t.tst ≠ .idle) : t.conflict p = false :=
  Bool.eq_false_iff.mpr fun both => h ((t.conflict_iff p).mp both).1

theorem Transactor.conflict_of_no_startWrite (h : p.startWrite = false) :
    t.conflict p = false := by
  simp [conflict, h]

theorem Transactor.conflict_of_no_startRead (h : p.startRead = false) : t.conflict p = false := by
  simp [conflict, h]

/-- Outside IDLE the start port is not read (R176). -/
theorem Transactor.next_eq_next_without_start (c : Config) (h : t.tst ≠ .idle) (w r : Bool)
    (reg : Addr) (data : Data) :
    t.next c { p with startWrite := w, startRead := r, regOut := reg, wdataOut := data } =
      t.next c { p with startWrite := false, startRead := false } := by
  rw [next_of_ne_idle h, next_of_ne_idle h]
  rfl

end

/-! ### The request of a state (R171, R177) -/

/-- Until its request is issued, the emitter's port shows the symbol of the transactor's state. -/
theorem State.carried_emitterRequest_of_fresh {s : State} (emitting : s.transactor.emitting = true)
    (fresh : s.transactor.issued = false) :
    s.carried .emitterRequest = decode? s.cfg (.emit (1#1 ++ s.transactor.emitKind)) := by
  simp [State.carried, State.portWord, Transactor.emitReq, emitting, fresh]

theorem decode?_bitKind (c : Config) (b : Bool) :
    decode? c (.emit (1#1 ++ bitKind b)) = some (bitInstr b) := by
  rw [decode?, decode_bitKind]

theorem State.no_request_carried_of_issued {s : State} (h : s.transactor.issued = true) :
    s.carried .emitterRequest = none ∧ s.carried .decoderRequest = none := by
  obtain ⟨emit, dec⟩ := Transactor.no_request_of_issued h
  rw [State.carried_emitterRequest, State.carried_decoderRequest, emit, dec]
  exact ⟨rfl, rfl⟩

/-! ### The rules of a frame (R177 to R183) -/

/-- Issue and wait, in the order of R177: the request first, then the wait for `finish`. -/
theorem Transactor.next_by_phase (c : Config) (p : TransactorIn) {t : Transactor}
    (h : t.tst ≠ .idle) :
    t.next c p =
      if !t.issued then { t.quiet with issued := true }
      else if t.finishSeen p then t.advance c p else t.quiet := by
  rw [next_of_ne_idle h, issueAndWait]
  cases t.issued <;> rfl

/-- The shift of R182 as arithmetic on words of `DATA_BITS` bits. -/
theorem shiftIn_eq_ofNat {c : Config} (h : c.dataBits ≤ 32) (v : Data) (bit : Bool) :
    shiftIn c v bit = BitVec.ofNat 32 ((2 * v.toNat + bit.toNat) % 2 ^ c.dataBits) := by
  apply BitVec.eq_of_getLsbD_eq
  intro k hk
  rw [getLsbD_shiftIn c v bit k h, BitVec.getLsbD_ofNat, decide_eq_true hk, Bool.true_and,
    Nat.testBit_mod_two_pow, ← Nat.bit_val]
  cases k with
  | zero => rw [if_pos rfl, Nat.testBit_bit_zero]
  | succ k =>
    rw [if_neg k.succ_ne_zero, Nat.add_sub_cancel, Nat.testBit_bit_succ, BitVec.testBit_toNat]

/-- R182 by index: the last bit of the word leads to STOP. -/
theorem Transactor.afterRdata_by_index (c : Config) {t : Transactor} (h : t.tst = .rdata)
    (bit err : Bool) :
    t.afterRdata c bit err =
      if t.idx = 0 then
        { t.quiet with
          tst := .stop, issued := false, rerr := t.rerr || err, rshift := shiftIn c t.rshift bit }
      else
        { t.quiet with
          idx := t.idx - 1, issued := false, rerr := t.rerr || err,
          rshift := shiftIn c t.rshift bit } := by
  by_cases last : t.idx = 0 <;> simp only [afterRdata, last, if_true, if_false, quiet, h]

/-! ### The line during a bit read (R186, R218) -/

/-- While a legal transactor reads bits the emitter rests in IDLE. -/
theorem CoreInv.emitter_idle_of_rdata {s : State} (h : CoreInv s)
    (rdata : s.transactor.tst = .rdata) : s.emitter.est = .idle := by
  have waits : s.dispatcher.cst = .waitDone := h.busyWaits (by simp [rdata])
  exact (h.emitter_idle (by simp [waits])
    fun emitting => absurd rdata (Transactor.ne_rdata_of_emitting emitting)).1

/-! ### The obligations -/

/-- Settles O16: without X3 the step is the whole cycle; its port shows the symbol of the state, and
outside IDLE each state's rule is issue and wait with that state's advance. -/
theorem transactorFollowsItsStateRules : Obligations.TransactorFollowsItsStateRules := by
  rintro s _ q topAddr topData hruns hn rfl hq haddr hdata
  obtain rfl : q = s.transactor.quiet := hq
  refine ⟨fun clk power hcfg => ?source, fun fresh => ?request,
    State.no_request_carried_of_issued, s.afterCycle, step_of_noConflict hruns hn, ?rules⟩
  case source =>
    have addr7 : topAddr.toNat + 1 = 7 := by rw [haddr, hcfg]; rfl
    have data32 : topData.toNat + 1 = 32 := by rw [hdata, hcfg]; rfl
    exact ⟨by bv_omega, by bv_omega⟩
  case request =>
    have symbol (emitting : s.transactor.emitting = true) :=
      State.carried_emitterRequest_of_fresh emitting fresh
    refine ⟨fun ht => ?start, fun ht => ?addr, fun ht => ?dir, fun ht => ?wdata, fun ht => ?rdata,
      fun ht => ?stop⟩
    case rdata => simp [State.carried_decoderRequest, Transactor.decReq, ht, fresh]
    all_goals rw [symbol (by simp [Transactor.emitting, ht])]; simp only [Transactor.emitKind, ht]
    case start => rfl
    case addr => exact decode?_bitKind _ _
    case dir => exact decode?_bitKind _ _
    case wdata => exact decode?_bitKind _ _
    case stop => rfl
  case rules =>
    have data32 : s.cfg.dataBits ≤ 32 := by omega
    obtain rfl : topAddr = BitVec.ofNat 5 (s.cfg.addrBits - 1) := by simp [← haddr]
    obtain rfl : topData = BitVec.ofNat 5 (s.cfg.dataBits - 1) := by simp [← hdata]
    change s.transactor.next s.cfg s.transactorIn = _
    cases ht : s.transactor.tst
    case idle =>
      cases hw : s.dispatcher.swR with
      | true =>
        have hr : s.dispatcher.srR = false := Bool.eq_false_iff.mpr fun hr => by
          simp [State.noConflict, (s.transactor.conflict_iff s.transactorIn).mpr ⟨ht, hw, hr⟩] at hn
        exact Transactor.next_of_startWrite ht hw hr
      | false =>
        cases hr : s.dispatcher.srR with
        | true => exact Transactor.next_of_startRead ht hw hr
        | false => exact Transactor.next_of_no_start ht hw hr
    all_goals
      rw [Transactor.next_by_phase _ _ (by simp [ht])]
      simp only [Transactor.finishSeen, Transactor.advance, ht]
    case start => rfl
    case addr => rfl
    case dir => rfl
    case wdata => rfl
    case rdata =>
      rw [Transactor.afterRdata_by_index _ ht, shiftIn_eq_ofNat data32]
      rfl
    case stop => rfl

/-- Settles O30: outside IDLE there is no X3, and the start port is not read. -/
theorem startOutsideIdleIsLost : Obligations.StartOutsideIdleIsLost := by
  intro s reg data i busy hi
  rcases hi with rfl | rfl
  · rw [exec, execStartWrite, State.lockstep_of_no_conflict (Transactor.conflict_of_busy busy),
      Transactor.next_eq_next_without_start _ busy]
  · rw [exec, execStartRead, State.lockstep_of_no_conflict (Transactor.conflict_of_busy busy),
      Transactor.next_eq_next_without_start _ busy]

/-- Settles O31: with both start pulses in IDLE every one of these cycles is X3; a legal dispatcher
gives one pulse at a time. -/
theorem bothStartsAreTheFault : Obligations.BothStartsAreTheFault := by
  intro s reg data
  refine ⟨fun idle write read => ⟨?_, ?_, fun hruns => ?_⟩, fun h ⟨write, read⟩ => ?_⟩
  · exact State.lockstep_of_conflict ((Transactor.conflict_iff _ _).mpr ⟨idle, rfl, read⟩) _ _ _
  · exact State.lockstep_of_conflict ((Transactor.conflict_iff _ _).mpr ⟨idle, write, rfl⟩) _ _ _
  · rw [step_of_runs hruns]
    exact State.lockstep_of_conflict ((Transactor.conflict_iff _ _).mpr ⟨idle, write, read⟩) _ _ _
  · exact absurd (read.symm.trans (h.oneStart write)) (by decide)

/-- Settles O44: a bit read has the transactor in RDATA, and with the emitter in IDLE the line is
released. -/
theorem lineIsReleasedDuringABitRead : Obligations.LineIsReleasedDuringABitRead := by
  intro s h reading
  have rdata : s.transactor.tst = .rdata := reading.elim (fun ne => (h.bitReadWanted ne).1) id
  have released : s.emitter.swioOe = false := by
    rw [BitEmitter.swioOe, h.emitter_idle_of_rdata rdata]
  exact ⟨by simp [BitEmitter.line, released], State.swioIn_of_released released⟩

/-- Settles O28: with `start_read` 0 there is no X3, and the start is accepted. -/
theorem startWriteInIdle : Obligations.StartWriteInIdle := by
  intro s reg data idle noRead
  rw [exec, execStartWrite,
    State.lockstep_of_no_conflict (Transactor.conflict_of_no_startRead noRead),
    Transactor.next_of_startWrite idle rfl noRead]
  rfl

/-- Settles O29: with `start_write` 0 there is no X3, and the start is accepted. -/
theorem startReadInIdle : Obligations.StartReadInIdle := by
  intro s reg idle noWrite
  rw [exec, execStartRead,
    State.lockstep_of_no_conflict (Transactor.conflict_of_no_startWrite noWrite),
    Transactor.next_of_startRead idle noWrite rfl]
  rfl

end Sys2Proof.Machine

/-! SUPPORT. The emitter's outputs (spec rules R115, R201), its requests in IDLE and outside it
(R205 to R209, R213), a run without reset as plain cycles (R112, R113), and the attach handshake
counted in milliseconds (R203, R204, R215); with the obligations on 43_bit_emitter.md. -/

namespace Sys2Proof.Machine

/-! ### The line (R115, R201) -/

section

variable {e : BitEmitter}

theorem BitEmitter.line_of_attachHigh (h : e.est = .attachHigh) : e.line = .drivingHigh := by
  simp [line, swioOe, swioOut, h]

theorem BitEmitter.line_of_attachLow (h : e.est = .attachLow) : e.line = .drivingLow := by
  simp [line, swioOe, swioOut, h]

theorem BitEmitter.line_of_idle (h : e.est = .idle) : e.line = .released := by
  simp [line, swioOe, h]

end

/-! ### A request's cycle (R205 to R209, R213) -/

/-- Without X3 a cycle with the emitter's next registers given completes, and the other components
take their own step. -/
theorem State.emitterCycle_of_noConflict {s : State} (hn : s.noConflict = true) (e : BitEmitter) :
    s.emitterCycle e = .next (s.advanced s.dispatcherNext
      (s.transactor.next s.cfg s.transactorIn) e s.decoderNext) :=
  State.lockstep_of_no_conflict (by simpa [State.noConflict] using hn) _ _ _

/-- An instruction of the emitter's port is one of the four requests. -/
theorem exec_eq_emitterCycle_of_port {i : Instr} (h : i.port = .emitterRequest) (s : State) :
    ∃ a, exec i s = s.emitterCycle (s.emitterOn a) := by
  cases i <;> cases h <;> exact ⟨_, rfl⟩

/-- Outside IDLE the emitter's step is its phase's, request or not (R213). -/
theorem State.emitterNext_of_ne_idle {s : State} (h : s.emitter.est ≠ .idle) :
    s.emitterNext = s.emitterPhase :=
  s.emitterNext_cases.resolve_right fun ⟨idle, _⟩ => h idle

/-- In IDLE the request's kind decides the phase and its ticks, EMIT_BIT1 and EMIT_START alike;
without a request IDLE holds (R205 to R209). -/
theorem State.emitterNext_of_idle {s : State} (h : s.emitter.est = .idle) :
    s.emitterNext =
      if s.transactor.emitReq then
        if s.transactor.emitKind = 0b00#2 then s.emitter.acceptBit0 s.cfg
        else if s.transactor.emitKind = 0b11#2 then s.emitter.acceptStop s.cfg
        else s.emitter.acceptBit1 s.cfg
      else s.emitter.quiet := by
  cases req : s.transactor.emitReq with
  | false => simp [State.emitterNext_of_no_request req, State.emitterPhase, BitEmitter.phase, h]
  | true =>
    simp only [State.emitterNext, req, if_true, State.emitterOn_of_idle _ _ h]
    obtain kind | kind | kind | kind := lane_cases s.transactor.emitKind <;> rw [kind] <;> rfl

/-! ### A run without reset (R112, R113) -/

/-- What a run of one more step does last. -/
theorem core_run_snoc_cases {s t : State} {n : Nat}
    (h : Host.Core.run Sys2Proof.core (n + 1) s = .next t) :
    ∃ u, Host.Core.run Sys2Proof.core n s = .next u ∧ step u = .next t := by
  induction n generalizing s with
  | zero =>
    obtain ⟨u, hs, hu⟩ := core_run_succ_cases h
    cases hu
    exact ⟨s, rfl, hs⟩
  | succ n ih =>
    obtain ⟨s', hs, hr⟩ := core_run_succ_cases h
    obtain ⟨u, hu, ht⟩ := ih hr
    exact ⟨u, (core_run_succ_of_next hs n).trans hu, ht⟩

/-- `rst`, `tx_ready` and the target's pull depend on the schedule and the draws alone. -/
theorem Env.inputs_congr {v w : Env} (pending : v.pending = w.pending) (draws : v.draws = w.draws) :
    v.inputs.rst = w.inputs.rst ∧ v.inputs.txReady = w.inputs.txReady ∧
      v.inputs.targetLow = w.inputs.targetLow := by
  cases hp : w.pending <;> simp [Env.inputs, pending, draws, hp]

/-- Plain cycles use the schedule and the draws one by one, whatever they acknowledge. -/
theorem State.afterCycles_schedule (s : State) (n : Nat) :
    (s.afterCycles n).env.pending = (s.env.skip n).pending ∧
      (s.afterCycles n).env.draws = (s.env.skip n).draws := by
  induction n with
  | zero => exact ⟨rfl, rfl⟩
  | succ n ih =>
    obtain ⟨pending, draws⟩ := ih
    exact ⟨congrArg List.tail pending, congrArg (· + 1) draws⟩

/-- The inputs of a cycle that no acknowledgement changes are those of `Env.skip`. -/
theorem State.afterCycles_inputs (s : State) (n : Nat) :
    (s.afterCycles n).inputs.rst = (s.env.skip n).inputs.rst ∧
      (s.afterCycles n).inputs.txReady = (s.env.skip n).inputs.txReady ∧
      (s.afterCycles n).inputs.targetLow = (s.env.skip n).inputs.targetLow :=
  Env.inputs_congr (s.afterCycles_schedule n).1 (s.afterCycles_schedule n).2

/-- A run without reset is a run of plain cycles. -/
theorem eq_afterCycles_of_core_run {s t : State} {n : Nat} (h : s.env.noReset n)
    (hr : Host.Core.run Sys2Proof.core n s = .next t) : t = s.afterCycles n := by
  induction n generalizing t with
  | zero => cases hr; rfl
  | succ n ih =>
    obtain ⟨u, hu, ht⟩ := core_run_snoc_cases hr
    obtain rfl := ih (fun k hk => h k (hk.trans n.lt_succ_self)) hu
    obtain ⟨rst, -⟩ | ⟨-, ht⟩ := step_next_reset_or_cycle ht
    · obtain ⟨sameRst, -⟩ := s.afterCycles_inputs n
      exact absurd (rst.symm.trans (sameRst.trans (h n n.lt_succ_self))) (by decide)
    · exact ht

@[simp] theorem State.afterCycles_cfg (s : State) (n : Nat) : (s.afterCycles n).cfg = s.cfg := by
  induction n with
  | zero => rfl
  | succ n ih => exact ih

/-- Plain cycles run the millisecond source as R118 has it. -/
theorem State.afterCycles_ems (s : State) (n : Nat) :
    (s.afterCycles n).ems = s.ems.after s.cfg.msRateHz s.cfg.clkHz n := by
  induction n with
  | zero => rfl
  | succ n ih =>
    change (s.afterCycles n).ems.next (s.afterCycles n).cfg.msRateHz _ = _
    rw [ih, s.afterCycles_cfg]
    rfl

/-! ### The attach handshake (R203, R204, R214, R215) -/

section

variable {c : Config} {e : BitEmitter}

theorem BitEmitter.ready_eq_false_iff (e : BitEmitter) :
    e.ready = false ↔ e.est = .attachHigh ∨ e.est = .attachLow := by
  cases he : e.est <;> simp [ready, he]

/-- A cycle without a millisecond leaves an attach phase and its count alone. -/
theorem BitEmitter.phase_of_no_msTick (h : e.ready = false) (k : Bool) :
    e.phase c false k = e.quiet := by
  obtain he | he := e.ready_eq_false_iff.mp h <;> simp [phase, he, attachHigh, attachLow]

/-- A millisecond that is not the attach phase's last takes one off the count. -/
theorem BitEmitter.phase_of_msTick (h : e.ready = false) (h1 : e.msCnt ≠ 1) (k : Bool) :
    e.phase c true k = { e.quiet with msCnt := e.msCnt - 1 } := by
  obtain he | he := e.ready_eq_false_iff.mp h <;>
    simp only [phase, he, attachHigh, attachLow, if_true, if_neg h1]

/-- The last millisecond of ATTACH_HIGH loads ATTACH_LOW. -/
theorem BitEmitter.phase_of_last_msTick_high (he : e.est = .attachHigh) (h1 : e.msCnt = 1)
    (k : Bool) :
    e.phase c true k =
      { e.quiet with est := .attachLow, msCnt := BitVec.ofNat 5 c.attachLowMs } := by
  simp [phase, he, attachHigh, h1]

/-- The last millisecond of ATTACH_LOW ends the handshake. -/
theorem BitEmitter.phase_of_last_msTick_low (he : e.est = .attachLow) (h1 : e.msCnt = 1)
    (k : Bool) : e.phase c true k = { e.quiet with est := .idle } := by
  simp [phase, he, attachLow, h1]

end

/-- The emitter `ms` milliseconds after reset: in the attach phase those fall into, with what is
left of it in `ms_cnt`, and ready after both phases. -/
structure BitEmitter.AttachingFor (c : Config) (ms : Nat) (e : BitEmitter) : Prop where
  high : ms < c.attachHighMs → e.est = .attachHigh ∧ e.msCnt.toNat + ms = c.attachHighMs
  low : c.attachHighMs ≤ ms → ms < c.attachHighMs + c.attachLowMs →
    e.est = .attachLow ∧ e.msCnt.toNat + ms = c.attachHighMs + c.attachLowMs
  ready : c.attachHighMs + c.attachLowMs ≤ ms → e.ready = true

section

variable {c : Config} {e : BitEmitter} {ms : Nat}

theorem BitEmitter.reset_attachingFor (hc : c.accepted = true) :
    (BitEmitter.reset c).AttachingFor c 0 := by
  obtain ⟨-, -, -, -, -, ⟨high1, high32⟩, -⟩ := Config.accepted_bounds c hc
  exact ⟨fun _ => ⟨rfl, toNat_ofNat_of_lt high32⟩, fun _ => by omega, fun _ => by omega⟩

/-- The emitter waits in an attach phase until both have lasted their milliseconds. -/
theorem BitEmitter.AttachingFor.not_ready (h : e.AttachingFor c ms)
    (lt : ms < c.attachHighMs + c.attachLowMs) : e.ready = false :=
  e.ready_eq_false_iff.mpr <| (Nat.lt_or_ge ms c.attachHighMs).imp (fun inHigh => (h.high inHigh).1)
    fun inLow => (h.low inLow lt).1

theorem BitEmitter.AttachingFor.quiet (h : e.AttachingFor c ms) : e.quiet.AttachingFor c ms :=
  ⟨h.high, h.low, h.ready⟩

/-- A tick is one millisecond more: it takes one off the count, or ends the phase at its last. -/
theorem BitEmitter.AttachingFor.phase_msTick (hc : c.accepted = true) (h : e.AttachingFor c ms)
    (lt : ms < c.attachHighMs + c.attachLowMs) (k : Bool) :
    (e.phase c true k).AttachingFor c (ms + 1) := by
  obtain ⟨-, -, -, -, -, -, ⟨low1, low32⟩, -⟩ := Config.accepted_bounds c hc
  have attaching := h.not_ready lt
  by_cases inHigh : ms < c.attachHighMs
  · obtain ⟨est, count⟩ := h.high inHigh
    by_cases last : e.msCnt = 1
    · rw [BitEmitter.phase_of_last_msTick_high est last]
      have load : (BitVec.ofNat 5 c.attachLowMs).toNat = c.attachLowMs := toNat_ofNat_of_lt low32
      exact ⟨fun _ => by bv_omega, fun _ _ => ⟨rfl, by bv_omega⟩, fun _ => by bv_omega⟩
    · rw [BitEmitter.phase_of_msTick attaching last]
      exact ⟨fun _ => ⟨est, by bv_omega⟩, fun _ => by bv_omega, fun _ => by bv_omega⟩
  · obtain ⟨est, count⟩ := h.low (by omega) lt
    by_cases last : e.msCnt = 1
    · rw [BitEmitter.phase_of_last_msTick_low est last]
      exact ⟨fun _ => by omega, fun _ => by bv_omega, fun _ => rfl⟩
    · rw [BitEmitter.phase_of_msTick attaching last]
      exact ⟨fun _ => by omega, fun _ _ => ⟨est, by bv_omega⟩, fun _ => by bv_omega⟩

end

/-- A cycle keeps the count of milliseconds: the attach phases take no request, and the emitter
stays ready afterwards (R204, R213, R214). -/
theorem State.emitterNext_attachingFor {s : State} {ms : Nat} (hc : s.cfg.accepted = true)
    (h : s.emitter.AttachingFor s.cfg ms) :
    s.emitterNext.AttachingFor s.cfg (ms + if s.msTick then 1 else 0) := by
  by_cases lt : ms < s.cfg.attachHighMs + s.cfg.attachLowMs
  · have attaching := h.not_ready lt
    rw [State.emitterNext_of_ne_idle fun idle => by simp [BitEmitter.ready, idle] at attaching,
      State.emitterPhase]
    cases s.msTick with
    | true => exact h.phase_msTick hc lt _
    | false =>
      rw [BitEmitter.phase_of_no_msTick attaching]
      exact h.quiet
  · have ready := State.emitterNext_ready hc (h.ready (by omega))
    exact ⟨fun _ => by omega, fun _ => by omega, fun _ => ready⟩

/-- From reset on, the emitter is where the milliseconds ticked so far put it. -/
theorem State.afterCycles_attachingFor {c : Config} (hc : c.accepted = true) (env : Env) (n : Nat) :
    ((State.resetWith c env).afterCycles n).emitter.AttachingFor c
      (TickSource.count c.msRateHz c.clkHz ⟨0⟩ n) := by
  induction n with
  | zero => exact BitEmitter.reset_attachingFor hc
  | succ n ih =>
    have cfg := (State.resetWith c env).afterCycles_cfg n
    have next := State.emitterNext_attachingFor (by rwa [cfg]) (by rwa [cfg])
    rw [State.msTick, State.afterCycles_ems, cfg] at next
    exact next

/-! ### The obligations -/

/-- Settles O19: the table, row by row. -/
theorem emitterOutputsFollowTheTable : Obligations.EmitterOutputsFollowTheTable := by
  rintro ⟨est, -, -, -⟩
  cases est <;> rfl

/-- Settles O17: without X3 the step is the whole cycle; outside IDLE its emitter is the phase's,
and in IDLE the request's. -/
theorem emitterFollowsItsStateRules : Obligations.EmitterFollowsItsStateRules := by
  rintro s _ q hruns hn rfl hq
  obtain rfl : q = s.emitter.quiet := hq
  refine ⟨BitEmitter.line_of_idle, s.afterCycle, step_of_noConflict hruns hn, ?_⟩
  change s.emitterNext = _
  cases he : s.emitter.est
  case idle => exact State.emitterNext_of_idle he
  all_goals
    rw [State.emitterNext_of_ne_idle (by simp [he]), State.emitterPhase, BitEmitter.phase, he]
    rfl

/-- Settles O58: the run is one of plain cycles, and its milliseconds are those of R120. -/
theorem attachTimingFromReset : Obligations.AttachTimingFromReset := by
  intro c env n t hc noReset hrun
  obtain rfl := eq_afterCycles_of_core_run noReset hrun
  obtain ⟨⟨ms1, msClk⟩, -⟩ := Config.accepted_bounds c hc
  obtain ⟨-, ms⟩ := tickSourceLaw c.msRateHz c.clkHz n (by omega) msClk
  obtain ⟨high, low, ready⟩ := ms ▸ State.afterCycles_attachingFor hc env n
  exact ⟨fun lt => BitEmitter.line_of_attachHigh (high lt).1,
    fun le lt => BitEmitter.line_of_attachLow (low le lt).1, ready⟩

/-- Settles O32: without X3 the cycle completes, and in IDLE the request is accepted. -/
theorem emitRequestsInIdle : Obligations.EmitRequestsInIdle := by
  rintro s _ hn idle rfl
  have accepts (a : BitEmitter) :
      s.emitterCycle (s.emitterOn a) = .next (s.advanced s.dispatcherNext
        (s.transactor.next s.cfg s.transactorIn) a s.decoderNext) := by
    rw [State.emitterCycle_of_noConflict hn, State.emitterOn_of_idle _ _ idle]
  exact ⟨accepts _, accepts _, accepts _, accepts _⟩

/-- Settles O33: without X3 the cycle completes, and outside IDLE the request is not looked at. -/
theorem emitRequestOutsideIdleIsIgnored : Obligations.EmitRequestOutsideIdleIsIgnored := by
  intro s i hn busy hport
  obtain ⟨a, meaning⟩ := exec_eq_emitterCycle_of_port hport s
  rw [meaning, State.emitterCycle_of_noConflict hn, State.emitterOn_of_ne _ _ busy]
  rfl

end Sys2Proof.Machine

/-! SUPPORT. The cycle of a bit-read request (spec rules R243, R248), the line's lows counted in
CAPTURE (R245, R246, R250), and a bit read that waits in SETUP for a target that stays silent (R244,
R283); with the obligations on 44_bit_decoder.md. -/

namespace Sys2Proof.Machine

/-! ### A request's cycle (R243, R248) -/

/-- Without X3 the cycle of READ_BIT completes, and the other components take their own step. -/
theorem exec_readBit_of_noConflict {s : State} (hn : s.noConflict = true) :
    exec .readBit s = .next (s.advanced s.dispatcherNext (s.transactor.next s.cfg s.transactorIn)
      s.emitterNext (s.decoderOn (s.decoder.acceptRead s.swioIn))) :=
  State.lockstep_of_no_conflict (by simpa [State.noConflict] using hn) _ _ _

/-- An accepted bit read goes by the level of the line in its own cycle (R243). -/
theorem BitDecoder.acceptRead_by_level (b : BitDecoder) (level : Bool) :
    b.acceptRead level =
      { b.quiet with dcnt := 0, dst := if level = false then .capture else .setup } := by
  cases level <;> rfl

/-- Outside IDLE the decoder's step is its state's, request or not (R248). -/
theorem State.decoderNext_of_ne_idle {s : State} (h : s.decoder.dst ≠ .idle) :
    s.decoderNext = s.decoderPhase :=
  s.decoderNext_cases.resolve_right fun ⟨idle, _⟩ => h idle

/-- In IDLE a request is accepted, and without one IDLE holds (R243). -/
theorem State.decoderNext_of_idle {s : State} (h : s.decoder.dst = .idle) :
    s.decoderNext =
      if s.transactor.decReq then s.decoder.acceptRead s.swioIn else s.decoder.quiet := by
  rw [State.decoderNext, State.decoderOn_of_idle _ _ h, State.decoderPhase, BitDecoder.phase, h]

/-! ### The low counted in CAPTURE (R245, R246, R250) -/

theorem BitDecoder.over_append_singleton (c : Config) (b : BitDecoder)
    (cycles : List (Bool × Bool)) (x : Bool × Bool) :
    b.over c (cycles ++ [x]) = (b.over c cycles).phase c x.1 x.2 := by
  simp [BitDecoder.over]

/-- The decoder over cycles in which the line is low. -/
def BitDecoder.overLow (c : Config) (b : BitDecoder) (ticks : List Bool) : BitDecoder :=
  b.over c (ticks.map fun tick => (false, tick))

theorem BitDecoder.overLow_append_singleton (c : Config) (b : BitDecoder) (ticks : List Bool)
    (k : Bool) : b.overLow c (ticks ++ [k]) = (b.overLow c ticks).phase c false k := by
  rw [overLow, List.map_append, List.map_singleton, over_append_singleton]
  rfl

section

variable {c : Config} {b : BitDecoder} {n : Nat}

/-- The threshold fits the count, and is not reached by nothing counted (R10, R24). -/
theorem toNat_decErrTicks (hc : c.accepted = true) :
    (BitVec.ofNat 7 c.decErrTicks).toNat = c.decErrTicks ∧ 0 < c.decErrTicks := by
  obtain ⟨-, -, -, -, -, -, -, -, -, -, -, ⟨err1, err128⟩, -⟩ := Config.accepted_bounds c hc
  exact ⟨toNat_ofNat_of_lt err128, err1⟩

/-- A high line ends CAPTURE, tick or not (R245, R249). -/
theorem BitDecoder.phase_of_capture_high (h : b.dst = .capture) (k : Bool) :
    b.phase c true k = { b.quiet with dst := .finish } := by
  simp [phase, h, capture]

/-- A cycle of low without a tick leaves the count alone. -/
theorem BitDecoder.phase_of_capture_no_tick (h : b.dst = .capture) :
    b.phase c false false = b.quiet := by
  simp [phase, h, capture]

/-- A tick of low that does not reach the threshold is counted. -/
theorem BitDecoder.phase_of_capture_tick (h : b.dst = .capture)
    (more : b.dcnt + 1 ≠ BitVec.ofNat 7 c.decErrTicks) :
    b.phase c false true = { b.quiet with dcnt := b.dcnt + 1 } := by
  simp only [phase, h, capture, quiet, Bool.false_eq_true, if_false, if_true, if_neg more]

/-- The tick that reaches the threshold is counted and ends CAPTURE. -/
theorem BitDecoder.phase_of_capture_last_tick (h : b.dst = .capture)
    (last : b.dcnt + 1 = BitVec.ofNat 7 c.decErrTicks) :
    b.phase c false true = { b.quiet with dcnt := b.dcnt + 1, dst := .finish } := by
  simp only [phase, h, capture, Bool.false_eq_true, if_false, if_true, if_pos last]

/-- After CAPTURE the count stands, and without a request no other capture begins (R246, R247). -/
theorem BitDecoder.phase_past_capture (notSetup : b.dst ≠ .setup) (notCapture : b.dst ≠ .capture)
    (level k : Bool) :
    (b.phase c level k).dst ≠ .setup ∧ (b.phase c level k).dst ≠ .capture ∧
      (b.phase c level k).dcnt = b.dcnt := by
  cases hb : b.dst <;> simp only [phase, hb]
  case idle => simp [hb]
  case setup => exact absurd hb notSetup
  case capture => exact absurd hb notCapture
  case finish => simp [classify]
  case waitMark => unfold waitMark; split_ifs <;> simp [hb]

/-- An error bit is 0 (R246). -/
theorem BitDecoder.classify_dbit_of_derr (hc : c.accepted = true)
    (h : (b.classify c).derr = true) : (b.classify c).dbit = false := by
  obtain ⟨-, -, -, -, stuck⟩ := shapesAreToldApart c b.dcnt hc
  exact stuck h

/-- The decoder after a low of `n` ticks: it counts in CAPTURE up to the threshold, and then stands
at the threshold with CAPTURE left. -/
structure BitDecoder.LowFor (c : Config) (n : Nat) (b : BitDecoder) : Prop where
  counting : n < c.decErrTicks → b.dst = .capture ∧ b.dcnt.toNat = n
  full : c.decErrTicks ≤ n →
    b.dst ≠ .setup ∧ b.dst ≠ .capture ∧ b.dcnt.toNat = c.decErrTicks

theorem BitDecoder.LowFor.dcnt_toNat (h : b.LowFor c n) :
    b.dcnt.toNat = min c.decErrTicks n := by
  obtain lt | le := Nat.lt_or_ge n c.decErrTicks
  · rw [(h.counting lt).2, Nat.min_eq_right lt.le]
  · rw [(h.full le).2.2, Nat.min_eq_left le]

/-- One tick below the threshold the next one reaches it. -/
theorem BitDecoder.LowFor.phase_last_tick (hc : c.accepted = true) (h : b.LowFor c n)
    (last : n + 1 = c.decErrTicks) :
    (b.phase c false true).dst = .finish ∧ (b.phase c false true).dcnt.toNat = c.decErrTicks := by
  obtain ⟨threshold, -⟩ := toNat_decErrTicks hc
  obtain ⟨dst, dcnt⟩ := h.counting (by omega)
  have reached : b.dcnt + 1 = BitVec.ofNat 7 c.decErrTicks := by bv_omega
  rw [phase_of_capture_last_tick dst reached]
  exact ⟨rfl, (congrArg BitVec.toNat reached).trans threshold⟩

/-- A cycle of low adds its tick to the low. -/
theorem BitDecoder.LowFor.phase (hc : c.accepted = true) (h : b.LowFor c n) (k : Bool) :
    (b.phase c false k).LowFor c (n + k.toNat) := by
  obtain lt | le := Nat.lt_or_ge n c.decErrTicks
  · obtain ⟨dst, dcnt⟩ := h.counting lt
    cases k with
    | false =>
      rw [phase_of_capture_no_tick dst]
      exact ⟨h.counting, h.full⟩
    | true =>
      rw [Bool.toNat_true]
      by_cases last : n + 1 = c.decErrTicks
      · obtain ⟨finish, count⟩ := h.phase_last_tick hc last
        exact ⟨fun _ => by omega, fun _ => ⟨by simp [finish], by simp [finish], count⟩⟩
      · obtain ⟨threshold, -⟩ := toNat_decErrTicks hc
        rw [phase_of_capture_tick dst (by bv_omega)]
        exact ⟨fun _ => ⟨dst, by bv_omega⟩, fun _ => by omega⟩
  · obtain ⟨notSetup, notCapture, dcnt⟩ := h.full le
    obtain ⟨notSetup', notCapture', same⟩ := phase_past_capture (c := c) notSetup notCapture false k
    exact ⟨fun _ => by omega, fun _ => ⟨notSetup', notCapture', same ▸ dcnt⟩⟩

/-- From CAPTURE with nothing counted, the decoder is where the ticks of the low put it. -/
theorem BitDecoder.overLow_lowFor (hc : c.accepted = true) (capture : b.dst = .capture)
    (zero : b.dcnt = 0) (low : List Bool) : (b.overLow c low).LowFor c (tickCount low) := by
  induction low using List.reverseRecOn with
  | nil =>
    obtain ⟨-, positive⟩ := toNat_decErrTicks hc
    exact ⟨fun _ => ⟨capture, congrArg BitVec.toNat zero⟩, fun le => absurd positive le.not_gt⟩
  | append_singleton low k ih =>
    rw [overLow_append_singleton, tickCount_append_singleton]
    exact ih.phase hc k

end

/-! ### A silent target (R244, R283) -/

theorem CoreInv.afterCycles {s : State} (h : CoreInv s) (n : Nat) : CoreInv (s.afterCycles n) := by
  induction n with
  | zero => exact h
  | succ n ih => exact ih.afterCycle

/-- SETUP holds in a cycle in which the target does not pull (R244): during a bit read nothing else
moves the line (R218). -/
theorem CoreInv.decoderNext_of_silent_target {s : State} (h : CoreInv s)
    (setup : s.decoder.dst = .setup) (silent : s.inputs.targetLow = false) :
    s.decoderNext.dst = .setup := by
  obtain ⟨-, level⟩ := lineIsReleasedDuringABitRead s h (.inl (by simp [setup]))
  rw [State.decoderNext_of_ne_idle (by simp [setup]), State.decoderPhase, BitDecoder.phase, setup]
  simp [BitDecoder.setup, level, silent, setup]

theorem CoreInv.afterCycles_setup {s : State} (h : CoreInv s) (setup : s.decoder.dst = .setup)
    {n : Nat} (silent : ∀ k < n, (s.env.skip k).inputs.targetLow = false) :
    (s.afterCycles n).decoder.dst = .setup := by
  induction n with
  | zero => exact setup
  | succ n ih =>
    obtain ⟨-, -, target⟩ := s.afterCycles_inputs n
    exact (h.afterCycles n).decoderNext_of_silent_target
      (ih fun k hk => silent k (hk.trans n.lt_succ_self))
      (target.trans (silent n n.lt_succ_self))

/-! ### The obligations -/

/-- Settles O18: without X3 the step is the whole cycle; outside IDLE its decoder is the state's, and
in IDLE the request's. -/
theorem decoderFollowsItsStateRules : Obligations.DecoderFollowsItsStateRules := by
  rintro s _ q hruns hn rfl hq
  obtain rfl : q = s.decoder.quiet := hq
  obtain ⟨accepted, -⟩ := s.runs_iff.mp hruns
  refine ⟨s.afterCycle, step_of_noConflict hruns hn, fun finish error => ?errorBit, ?registers⟩
  case errorBit =>
    have next : s.afterCycle.decoder = s.decoder.classify s.cfg := by
      change s.decoderNext = _
      rw [State.decoderNext_of_ne_idle (by simp [finish]), State.decoderPhase, BitDecoder.phase,
        finish]
    rw [next] at error ⊢
    exact BitDecoder.classify_dbit_of_derr accepted error
  case registers =>
    change s.decoderNext = _
    cases hb : s.decoder.dst
    case idle =>
      rw [State.decoderNext_of_idle hb, BitDecoder.acceptRead_by_level]
      cases s.swioIn <;> rfl
    all_goals
      rw [State.decoderNext_of_ne_idle (by simp [hb]), State.decoderPhase, BitDecoder.phase, hb]
    case setup => cases s.swioIn <;> rfl
    case capture =>
      rw [BitDecoder.capture]
      split_ifs <;> simp [BitDecoder.quiet, hb]
    case finish => rfl
    case waitMark => rfl

/-- Settles O53: the low is counted up to the threshold; a high line ends it below, the last tick at
the threshold. -/
theorem lowDurationDecidesTheBit : Obligations.LowDurationDecidesTheBit := by
  intro c b low tick hc capture zero
  have counted := BitDecoder.overLow_lowFor hc capture zero low
  refine ⟨counted.dcnt_toNat, fun lt => ?high, fun last => ?threshold⟩
  case high =>
    obtain ⟨dst, dcnt⟩ := counted.counting lt
    have ends : b.over c ((low.map fun x => (false, x)) ++ [(true, tick)]) =
        { (b.overLow c low).quiet with dst := .finish } := by
      rw [BitDecoder.over_append_singleton]
      exact BitDecoder.phase_of_capture_high dst tick
    rw [ends]
    refine ⟨rfl, congrArg (fun n => decide (n ≤ c.decOneMaxTicks)) dcnt, ?_⟩
    exact (classifyError_eq_false_iff _ _).mpr (dcnt.trans_ne lt.ne)
  case threshold =>
    obtain ⟨dst, dcnt⟩ := counted.phase_last_tick hc last
    rw [← BitDecoder.overLow_append_singleton] at dst dcnt
    have error := (classifyError_eq_true_iff c _).mpr dcnt
    exact ⟨dst, BitDecoder.classify_dbit_of_derr hc error, error⟩

/-- Settles O59: the run is one of plain cycles, in which SETUP holds; a legal state reads a bit only
in RDATA, while the dispatcher waits. -/
theorem silentTargetHoldsTheRead : Obligations.SilentTargetHoldsTheRead := by
  intro n s t h setup noReset silent hrun
  obtain rfl := eq_afterCycles_of_core_run noReset hrun
  have legal := h.afterCycles n
  have waiting := h.afterCycles_setup setup silent
  obtain ⟨rdata, -⟩ := legal.bitReadWanted (by simp [waiting])
  have wait := legal.busyWaits (by simp [rdata])
  refine ⟨waiting, rdata, wait, Bool.eq_false_iff.mpr fun quiescent => ?_⟩
  obtain ⟨command, -⟩ := (State.quiescent_iff _).mp quiescent
  simp [wait] at command

/-- Settles O34: without X3 the cycle completes, and in IDLE the request is accepted. -/
theorem readBitInIdle : Obligations.ReadBitInIdle := by
  intro s hn idle
  rw [exec_readBit_of_noConflict hn, State.decoderOn_of_idle _ _ idle,
    BitDecoder.acceptRead_by_level]
  rfl

/-- Settles O35: without X3 the cycle completes, and outside IDLE the request is not looked at. -/
theorem readBitOutsideIdleIsIgnored : Obligations.ReadBitOutsideIdleIsIgnored := by
  intro s hn busy
  rw [exec_readBit_of_noConflict hn, State.decoderOn_of_ne _ _ busy]
  rfl

end Sys2Proof.Machine

/-! SUPPORT. The one fault of the core, X3, which only a cycle of the core can raise and no legal
state has (spec rules R175, R271, R273, R307); with the obligation on 60_exceptions.md. -/

namespace Sys2Proof.Machine

/-! ### Where X3 can come from (R273) and why it does not (R307) -/

/-- Refusals and reset come before X3: a step that faults is a cycle of the core. -/
theorem runs_of_step_fault {s : State} {f : Fault} (h : step s = .fault f) : s.runs = true := by
  cases ha : s.cfg.accepted with
  | false => simp [step_of_not_accepted ha] at h
  | true =>
    cases hr : s.inputs.rst with
    | true => simp [step_of_rst ha hr] at h
    | false =>
      cases hl : s.linkKept with
      | false => simp [step_of_link_broken ha hr hl] at h
      | true => exact s.runs_iff.mpr ⟨ha, hr, hl⟩

/-- A legal dispatcher never pulses both starts, so the transactor meets no conflict. -/
theorem CoreInv.noConflict {s : State} (h : CoreInv s) : s.noConflict = true := by
  cases write : s.dispatcher.swR with
  | false => exact State.noConflict_of_no_startWrite write
  | true =>
    have noRead : s.transactorIn.startRead = false := h.oneStart write
    rw [State.noConflict, Transactor.conflict_of_no_startRead noRead]
    rfl

/-! ### The obligation -/

/-- Settles O43: only a cycle of the core could fault, and without a conflict it completes. -/
theorem legalStatesNeverFault : Obligations.LegalStatesNeverFault := by
  intro s f h hfault
  have completes := step_of_noConflict (runs_of_step_fault hfault) h.noConflict
  simp [completes] at hfault

end Sys2Proof.Machine

/-! SUPPORT. The pulses inside the core and the consumers that wait for them (spec rules R186, R305,
R307); with the obligation on 70_reset_and_hazards.md that every pulse is observed. -/

namespace Sys2Proof.Machine

/-! ### A request meets a component at rest (R186, R305) -/

section

variable {s : State}

/-- A legal `emit_req` finds no symbol under way: the transactor has not issued one, and the line has
been attached since INIT. -/
theorem CoreInv.emitter_idle_of_emitReq (h : CoreInv s) (req : s.transactor.emitReq = true) :
    s.emitter.est = .idle := by
  obtain ⟨emitting, fresh⟩ : s.transactor.emitting = true ∧ s.transactor.issued = false := by
    simpa [Transactor.emitReq] using req
  have waits : s.dispatcher.cst = .waitDone := h.busyWaits (Transactor.ne_idle_of_emitting emitting)
  exact (h.emitter_idle (by simp [waits]) fun _ => fresh).1

/-- A legal `dec_req` finds no bit read under way: the transactor has not issued one. -/
theorem CoreInv.decoder_idle_of_decReq (h : CoreInv s) (req : s.transactor.decReq = true) :
    s.decoder.dst = .idle := by
  obtain ⟨-, fresh⟩ : s.transactor.tst = .rdata ∧ s.transactor.issued = false := by
    simpa [Transactor.decReq] using req
  exact (h.decoder_idle fun _ => fresh).1

end

/-! ### The obligation -/

/-- Settles O45: a request meets a component with nothing under way; of every other pulse the core's
invariant names the consumer that waits for it. -/
theorem everyPulseIsObserved : Obligations.EveryPulseIsObserved := by
  intro s h
  refine ⟨h.emitter_idle_of_emitReq, h.decoder_idle_of_decReq, fun start => ?start,
    fun finish => (h.finishWanted finish).2, fun finish => (h.bitReadDone finish).2,
    fun done => (h.donePulse done).1⟩
  case start =>
    obtain ⟨-, idle, -⟩ := h.startPulse (Bool.or_eq_true_iff.mpr start)
    exact idle

end Sys2Proof.Machine
